-- ==== Sys2Proof/Word.lean ====
section
/-! DEFINITION. The word types of PNGCORE: bytes, 32-bit words, 64-bit words (00_scope.md R4) and byte
sequences (R5). -/

namespace Sys2Proof

/-- A byte, an integer in 0..255 (R4). -/
abbrev Byte := BitVec 8

/-- A 32-bit word: CMD, STATUS, CRCOUT and the CRC computation (R4, R8). -/
abbrev Word32 := BitVec 32

/-- A 64-bit word: what WIDTH and HEIGHT hold, read as two's complement (R18). -/
abbrev Word64 := BitVec 64

/-- A finite list of bytes, index 0 first (R5). -/
abbrev ByteSeq := List Byte

end Sys2Proof
end

