-- ==== Sys2Proof/Syntax.lean ====
section
/-! DEFINITION. The five commands of the opcode map (30_encoding.md R48), one constructor per row of
spec/opcode_table.json. -/

namespace Sys2Proof

/-- A command. Operands come from fixed registers (R50), so only IHDR carries fields of its word: the bit depth
BD and the colour type CT (44_header_builder.md R82, "Operands"). -/
inductive Instr where
  /-- CRC32, R61. -/
  | crc32
  /-- FRAME, R66. -/
  | frame
  /-- CHUNK, R79. -/
  | chunk
  /-- IHDR, R82, with the fields BD and CT of its word. -/
  | ihdr (bd ct : Byte)
  /-- ENCODE, R91. -/
  | encode
deriving DecidableEq, Repr

end Sys2Proof
end

