-- ==== Sys2Proof/WellFormed.lean ====
section
/-! DEFINITION. Which commands the block can be given (30_encoding.md R49): an IHDR word spells bit depth 8 and
colour type 6. -/

namespace Sys2Proof

/-- The command has a legal word (R48, R49). The other four commands carry no field that could be wrong. -/
def Instr.wellFormed : Instr → Bool
  | .crc32 => true
  | .frame => true
  | .chunk => true
  | .ihdr bd ct => bd = 8 && ct = 6
  | .encode => true

end Sys2Proof
end

