-- ==== Sys2Proof/Decode.lean ====
section
/-! DEFINITION. The command word CMD32 (30_encoding.md R47): its fields, the decoder (R51, R52), total on every
32-bit word and refusing by name, and the encoder (R48). A command is a 32-bit register value, not bytes in a
memory (20_memory.md R33, R45), so no byte order enters. -/

namespace Sys2Proof

/-- OP, bits 7:0 (R47). -/
def opField (v : Word32) : Byte := v.extractLsb' 0 8

/-- BD, bits 15:8 (R47). -/
def bdField (v : Word32) : Byte := v.extractLsb' 8 8

/-- CT, bits 23:16 (R47). -/
def ctField (v : Word32) : Byte := v.extractLsb' 16 8

/-- RSV, bits 31:24 (R47). -/
def rsvField (v : Word32) : Byte := v.extractLsb' 24 8

/-- Why a word is illegal, one name for each legality check of R51. All of them end the command with the one
error `IllegalCommand` (R52). -/
inductive DecodeError where
  /-- RSV is not 0. -/
  | reservedNotZero
  /-- OP = 0x04 with BD other than 8 or CT other than 6. -/
  | depthOrColour
  /-- OP other than 0x04 with BD or CT not 0. -/
  | fieldsNotZero
  /-- OP is 0x00 or in 0x06..0xFF. -/
  | unknownOpcode
deriving DecidableEq, Repr

/-- R51's legality checks, in its order, then the command the opcode selects. -/
def decode (v : Word32) : Except DecodeError Instr :=
  if rsvField v ≠ 0 then .error .reservedNotZero
  else if opField v = 0x04 ∧ (bdField v ≠ 8 ∨ ctField v ≠ 6) then .error .depthOrColour
  else if opField v ≠ 0x04 ∧ (bdField v ≠ 0 ∨ ctField v ≠ 0) then .error .fieldsNotZero
  else if opField v = 0x01 then .ok .crc32
  else if opField v = 0x02 then .ok .frame
  else if opField v = 0x03 then .ok .chunk
  else if opField v = 0x04 then .ok (.ihdr (bdField v) (ctField v))
  else if opField v = 0x05 then .ok .encode
  else .error .unknownOpcode

/-- The command in a host-numbered bit pattern of `nbits` bits, the bits above them 0. A command is one 32-bit
word (R53), so a longer pattern is no command. -/
def decodeTableWord (nbits w : Nat) : Option Instr :=
  if nbits ≤ 32 then
    match decode (BitVec.ofNat 32 (w % 2 ^ nbits)) with
    | .ok i => some i
    | .error _ => none
  else none

/-- The word with the given fields, RSV first (R47's figure). -/
def packFields (rsv ct bd op : Byte) : Word32 :=
  (rsv.setWidth 32 <<< 24) ||| (ct.setWidth 32 <<< 16) ||| (bd.setWidth 32 <<< 8) ||| op.setWidth 32

/-- OP of a command (R48). -/
def opcodeOf : Instr → Byte
  | .crc32 => 0x01
  | .frame => 0x02
  | .chunk => 0x03
  | .ihdr _ _ => 0x04
  | .encode => 0x05

/-- The word of a command (R48, R49): BD and CT are 0 but for IHDR, RSV is 0. -/
def encode : Instr → Word32
  | .crc32 => packFields 0 0 0 (opcodeOf .crc32)
  | .frame => packFields 0 0 0 (opcodeOf .frame)
  | .chunk => packFields 0 0 0 (opcodeOf .chunk)
  | .ihdr bd ct => packFields 0 ct bd (opcodeOf (.ihdr bd ct))
  | .encode => packFields 0 0 0 (opcodeOf .encode)

end Sys2Proof
end

