-- ==== Sys2Proof/Config.lean ====
section
/-! DEFINITION. What an implementation fixes (00_scope.md R3): the parameters with a value, and the OPEN
parameters as uninterpreted constants or as plain data that a model instance binds (70_reset_and_hazards.md R109
step 1). -/

namespace Sys2Proof

/-- DIM_MAX, the largest legal width or height (R3, R80). -/
def Config.dimMax : Nat := 2 ^ 32 - 1

/-- CHUNK_DATA_MAX, the largest chunk data length with a meaning (R3, R78). -/
def Config.chunkDataMax : Nat := 2 ^ 31 - 1

/-- BIT_DEPTH (R3, R49). -/
def Config.bitDepth : Byte := 8

/-- COLOR_TYPE, truecolor with alpha (R3, R49). -/
def Config.colorType : Byte := 6

/-- The type a model instance names for the OPEN parameter Detail, the type of a compressor's failure report (R3,
D20). The model takes that type as an argument, `δ` below and in every definition of Machine/ but those of the one
instance it runs. That instance names text, as the fixtures of 95_test_vectors.md do. DESIGN CHOICE, safe (log entry
1). -/
abbrev Detail := String

/-- What the compressor port answers (R67): a byte sequence, or a failure report of type `δ`. -/
inductive CompResult (δ : Type) where
  /-- The compressed bytes. -/
  | ok (z : ByteSeq)
  /-- The failure report. -/
  | fail (d : δ)
deriving DecidableEq, Repr, Inhabited

/-- COMPRESS where the bound configuration says nothing else (R67): total, deterministic (R72), and otherwise
unknown. That it always returns is the spec's own assumption (R73, I11), unsafe (log entry 13). -/
opaque Config.compress (δ : Type) : ByteSeq → CompResult δ

/-- REGMAP: the bus address of register number n (R12, R39, D4). No rule reads it. DESIGN CHOICE, safe (log entry 4). -/
opaque Config.regmap : Nat → Nat

/-- A compressor configuration as plain data, so that statements over every state hold for every choice of it:
results for the listed inputs, then one result for every other input, or (`none`) the unknown `Config.compress`.
DESIGN CHOICE, safe (log entry 2). -/
structure Compressor (δ : Type) where
  /-- Results for listed inputs; the first listing of an input counts. -/
  pinned : List (ByteSeq × CompResult δ)
  /-- The result for every other input; `none` leaves it to `Config.compress`. -/
  otherwise : Option (CompResult δ)
deriving DecidableEq, Repr

/-- The configuration a model instance binds (R3, R109 step 1). A capacity `none` is unbounded (D6). -/
structure Binding (δ : Type) where
  /-- COMPRESS (R67). -/
  compressor : Compressor δ
  /-- CAP_A, the capacity of OPA in bytes. -/
  capA : Option Nat
  /-- CAP_B, the capacity of OPB in bytes. -/
  capB : Option Nat
  /-- CAP_OUT, the capacity of OUT in bytes; at least 13 in an admitted configuration (R109 step 1). -/
  capOut : Option Nat
deriving DecidableEq, Repr

end Sys2Proof
end

