-- ==== Sys2Proof/Machine/Registers.lean ====
section
/-! DEFINITION. The nine registers as a host names them (10_state.md R12), the values a host access moves, each
one whole register (20_memory.md R35). -/

namespace Sys2Proof.Machine

/-- The registers of R12. -/
inductive Reg where
  | cmd | status | width | height | opa | opb | crcout | out | errdetail
deriving DecidableEq, Repr

/-- The number R12 gives a register. It is a name, not a bus address. -/
def regNumber : Reg → Nat
  | .cmd => 0
  | .status => 1
  | .width => 2
  | .height => 3
  | .opa => 4
  | .opb => 5
  | .crcout => 6
  | .out => 7
  | .errdetail => 8

/-- What a host read gives (R35). -/
inductive RegVal (δ : Type) where
  /-- CMD, STATUS or CRCOUT. -/
  | word (v : Word32)
  /-- WIDTH or HEIGHT. -/
  | dim (v : Word64)
  /-- OPA, OPB or OUT, with its length. -/
  | bytes (b : ByteSeq)
  /-- ERRDETAIL. -/
  | detail (d : δ)
deriving DecidableEq, Repr

/-- A host write: the register and a value of its width (R35). Writes that R12 does not allow are among them,
because R26 says what the model records for them. -/
inductive RegWrite (δ : Type) where
  | cmd (v : Word32)
  | status (v : Word32)
  | width (v : Word64)
  | height (v : Word64)
  | opa (b : ByteSeq)
  | opb (b : ByteSeq)
  | crcout (v : Word32)
  | out (b : ByteSeq)
  | errdetail (d : δ)
deriving DecidableEq, Repr

/-- The register a host write names. -/
def writeTarget {δ : Type} : RegWrite δ → Reg
  | .cmd _ => .cmd
  | .status _ => .status
  | .width _ => .width
  | .height _ => .height
  | .opa _ => .opa
  | .opb _ => .opb
  | .crcout _ => .crcout
  | .out _ => .out
  | .errdetail _ => .errdetail

end Sys2Proof.Machine
end

