-- ==== Sys2Proof/Machine/Script.lean ====
section
/-! DEFINITION. The host script of 30_encoding.md R54, its pseudo-instructions and their expansions (R55): the
lines a host executes, the source statements, and the assembler from one to the other. The text form of R54 is
taken as its abstract syntax; labels are numbers that stand for names. DESIGN CHOICE, unsafe for a claim about a script
that uses a corner of log entry 18, else safe. The assembler is that of the instance, whose reports are `Detail`. -/

namespace Sys2Proof.Machine

/-- `mnemonic` of R54. -/
inductive Mnemonic where
  | crc32 | frame | chunk | ihdr | encode
deriving DecidableEq, Repr

/-- The command a mnemonic names, with IHDR's two legal field values (R48, R49). -/
def mnemonicInstr : Mnemonic → Instr
  | .crc32 => .crc32
  | .frame => .frame
  | .chunk => .chunk
  | .ihdr => .ihdr Config.bitDepth Config.colorType
  | .encode => .encode

/-- The word a `cmd` line writes (R54): the mnemonic's legal word. -/
def legalWord (m : Mnemonic) : Word32 := encode (mnemonicInstr m)

/-- A line the host executes. A jump names the line it goes to. -/
inductive HostLine (δ : Type) where
  /-- `wr reg, value`. -/
  | wr (w : RegWrite δ)
  /-- `rd reg`. -/
  | rd (r : Reg)
  /-- `cmd mnemonic`. -/
  | cmd (m : Mnemonic)
  /-- `cmd.raw word`. -/
  | cmdRaw (v : Word32)
  /-- `jbusy label`, the label resolved to a line. -/
  | jbusy (target : Nat)
deriving DecidableEq, Repr

/-- `bytes` of R54. -/
inductive BytesExpr where
  /-- `[]`. -/
  | empty
  /-- `hex"..."`, the pairs already read as bytes. -/
  | hex (b : ByteSeq)
  /-- `ascii"..."`. -/
  | ascii (cs : List Char)
  /-- `repeat(byte, count)`. -/
  | rep (b : Byte) (n : Nat)
  /-- `bytes "++" bytes`. -/
  | cat (x y : BytesExpr)
deriving DecidableEq, Repr

/-- The byte sequence an expression denotes (R54, R5). -/
def bytesOf : BytesExpr → ByteSeq
  | .empty => []
  | .hex b => b
  | .ascii cs => cs.map fun c => BitVec.ofNat 8 c.toNat
  | .rep b n => List.replicate n b
  | .cat x y => bytesOf x ++ bytesOf y

/-- `value` of R54. -/
inductive Value where
  | int (n : Int)
  | bytes (e : BytesExpr)
deriving DecidableEq, Repr

/-- A source statement: the core statements of R54 and the pseudo-instructions of R55. -/
inductive Stmt where
  | wr (r : Reg) (v : Value)
  | rd (r : Reg)
  | cmd (m : Mnemonic)
  | cmdRaw (v : Word32)
  | jbusy (label : Nat)
  | wait
  | run (m : Mnemonic)
  | crc (e : BytesExpr)
  | frame (w h : Int) (e : BytesExpr)
  | chunk (t d : BytesExpr)
  | ihdr (w h : Int)
  | png (w h : Int) (e : BytesExpr)
deriving DecidableEq, Repr

/-- `line` of R54: an optional label, an optional statement. -/
structure Line where
  label : Option Nat
  stmt : Option Stmt
deriving DecidableEq, Repr

/-- An integer as a word of `n` bits, where it is one read as signed or as unsigned. -/
def intWord (n : Nat) (v : Int) : Option (BitVec n) :=
  if -2 ^ (n - 1) ≤ v ∧ v < 2 ^ n then some (BitVec.ofInt n v) else none

/-- The access a `wr` statement makes; `none` where the value is not one of the register's kind. A value for
ERRDETAIL has no form in R54, and the write is a violation whatever it is (R26). DESIGN CHOICE (log entry 18), safe. -/
def writeOf : Reg → Value → Option (RegWrite Detail)
  | .cmd, .int v => (intWord 32 v).map .cmd
  | .status, .int v => (intWord 32 v).map .status
  | .width, .int v => (intWord 64 v).map .width
  | .height, .int v => (intWord 64 v).map .height
  | .opa, .bytes e => some (.opa (bytesOf e))
  | .opb, .bytes e => some (.opb (bytesOf e))
  | .crcout, .int v => (intWord 32 v).map .crcout
  | .out, .bytes e => some (.out (bytesOf e))
  | .errdetail, .bytes _ => some (.errdetail "")
  | .errdetail, .int _ => some (.errdetail "")
  | _, _ => none

/-- `wait` at line `pos`: read STATUS, and again while it says BUSY (R55). -/
def waitLines (pos : Nat) : List (HostLine Detail) := [.rd .status, .jbusy pos]

/-- `run M` at line `pos` (R55). -/
def runLines (pos : Nat) (m : Mnemonic) : List (HostLine Detail) := .cmd m :: waitLines (pos + 1)

/-- `wr reg, value` as lines. -/
def writeLines (r : Reg) (v : Value) : Option (List (HostLine Detail)) := (writeOf r v).map fun w => [.wr w]

/-- Several pieces in order, if each has a meaning. -/
def joinLines (xs : List (Option (List (HostLine Detail)))) : Option (List (HostLine Detail)) :=
  xs.foldr (fun x acc => x.bind fun l => acc.map fun r => l ++ r) (some [])

/-- The lines of a statement that starts at line `pos` (R55's table), where `find` gives each label its line. -/
def expandStmt (find : Nat → Option Nat) (pos : Nat) : Stmt → Option (List (HostLine Detail))
  | .wr r v => writeLines r v
  | .rd r => some [.rd r]
  | .cmd m => some [.cmd m]
  | .cmdRaw v => some [.cmdRaw v]
  | .jbusy l => (find l).map fun t => [.jbusy t]
  | .wait => some (waitLines pos)
  | .run m => some (runLines pos m)
  | .crc e => joinLines [writeLines .opa (.bytes e), some (runLines (pos + 1) .crc32), some [.rd .crcout]]
  | .frame w h e => joinLines [writeLines .width (.int w), writeLines .height (.int h), writeLines .opa (.bytes e),
      some (runLines (pos + 3) .frame), some [.rd .out]]
  | .chunk t d => joinLines [writeLines .opa (.bytes t), writeLines .opb (.bytes d),
      some (runLines (pos + 2) .chunk), some [.rd .out]]
  | .ihdr w h => joinLines [writeLines .width (.int w), writeLines .height (.int h),
      some (runLines (pos + 2) .ihdr), some [.rd .out]]
  | .png w h e => joinLines [writeLines .width (.int w), writeLines .height (.int h), writeLines .opa (.bytes e),
      some (runLines (pos + 3) .encode), some [.rd .out]]

/-- How many lines a statement expands to. -/
def stmtSize : Stmt → Nat
  | .wr _ _ => 1
  | .rd _ => 1
  | .cmd _ => 1
  | .cmdRaw _ => 1
  | .jbusy _ => 1
  | .wait => 2
  | .run _ => 3
  | .crc _ => 5
  | .frame _ _ _ => 7
  | .chunk _ _ => 6
  | .ihdr _ _ => 6
  | .png _ _ _ => 7

/-- The size of a source line's expansion. -/
def lineSize (l : Line) : Nat :=
  match l.stmt with
  | none => 0
  | some t => stmtSize t

/-- Where each label stands, counting from line `pos`. -/
def labelTable : Nat → List Line → List (Nat × Nat)
  | _, [] => []
  | pos, l :: ls =>
    match l.label with
    | none => labelTable (pos + lineSize l) ls
    | some n => (n, pos) :: labelTable (pos + lineSize l) ls

/-- The lines of a source text that starts at line `pos`. -/
def expandLines (find : Nat → Option Nat) : Nat → List Line → Option (List (HostLine Detail))
  | _, [] => some []
  | pos, l :: ls =>
    match l.stmt with
    | none => expandLines find pos ls
    | some t => joinLines [expandStmt find pos t, expandLines find (pos + stmtSize t) ls]

/-- The host program of a script; `none` where a label is missing or a value is not one of its register. -/
def assemble (src : List Line) : Option (List (HostLine Detail)) :=
  expandLines (fun n => (labelTable 0 src).lookup n) 0 src

end Sys2Proof.Machine
end

