-- ==== Sys2Proof/Machine/State.lean ====
section
/-! DEFINITION. The state of one PNGCORE instance (10_state.md R11, R12), with the bound configuration (00_scope.md
R3), the host agent (00_scope.md section 6) and the order of moves (20_memory.md R42); the model's fault and
refusal reasons (60_exceptions.md R96, R97); the result of a command (30_encoding.md R51); the reset state. -/

namespace Sys2Proof.Machine

/-- The model fault reasons of R96, a closed enumeration. -/
inductive Fault where
  /-- Raised by the core's step: a legal command reads an operand register that holds no value. The spec states this
  stop (R50, R51, R96, I9). Safe. -/
  | unwrittenOperand
  /-- Raised by a host write of CMD, WIDTH, HEIGHT, OPA or OPB while BUSY = 1 (R26). Safe. -/
  | hostWriteWhileBusy
  /-- Raised by a host write of STATUS, CRCOUT, OUT or ERRDETAIL (R26). Safe. -/
  | hostWriteReadOnly
  /-- Raised by a host read of CRCOUT, OUT or ERRDETAIL while BUSY = 1 (R26). Safe. -/
  | hostReadWhileBusy
  /-- Raised by a host read of a register that holds no value. The spec states this stop (R26, R28, R96, I9). Safe. -/
  | readNoValue
  /-- Raised by a `BufRead` out of range (R36); no rule reaches it. Exact. -/
  | bufferIndex
deriving DecidableEq, Repr

/-- The model refusal reasons of R97, a closed enumeration, and the interface's own. -/
inductive Refusal where
  /-- Raised by `exec` for an instruction that has no meaning yet; none here. Safe. -/
  | notModelled (mnemonic : String)
  /-- Raised by CHUNK and ENCODE: chunk data longer than 2^31 - 1 bytes (R78). Safe. -/
  | chunkDataTooLong
  /-- Raised by a host buffer write, FRAME, CHUNK and ENCODE: a byte sequence longer than a capacity (R37, R38).
  Safe. -/
  | capacityExceeded
deriving DecidableEq, Repr

/-- The error names of R92. Their codes are `errorNumber`. -/
inductive ErrorCode where
  | invalidRaster | invalidDimensions | invalidChunkType | compressionFailure | illegalCommand
deriving DecidableEq, Repr

/-- `Outcome` of R51, for failure reports of type `δ`. `errorCf` is the error `CompressionFailure` with its
report; the other errors are `error`. -/
inductive CmdResult (δ : Type) where
  | okCrc (c : Word32)
  | okOut (b : ByteSeq)
  | error (e : ErrorCode)
  | errorCf (d : δ)
  | fault (r : Fault)
  | refuse (r : Refusal)
deriving DecidableEq, Repr

/-- What a read gave the host (70_reset_and_hazards.md R115). -/
structure Reply (δ : Type) where
  reg : Reg
  val : RegVal δ
deriving DecidableEq, Repr

/-- The host of the instance (00_scope.md section 6; 60_exceptions.md R104) with the program it runs (R54).
The model's own fields: DESIGN CHOICE, safe (log entry 7). -/
structure HostAgent (δ : Type) where
  /-- The program, one executable line each. -/
  program : List (HostLine δ)
  /-- The line to execute next; the run has ended when it is past the last line (R116). -/
  line : Nat
  /-- Whether the last STATUS read had BUSY = 1, which is what `jbusy` tests (R54). -/
  sawBusy : Bool
  /-- What the reads gave, oldest first. -/
  replies : List (Reply δ)
deriving DecidableEq, Repr

/-- Who moves: the host executes a line, the core steps (R25), or the platform resets the instance (R107). -/
inductive Turn where
  | host | core | reset
deriving DecidableEq, Repr

/-- The order of moves (R42), the model's own fields: DESIGN CHOICE (log entry 8), unsafe for claims of progress. -/
structure Schedule where
  /-- The moves listed, next first. -/
  turns : List Turn
  /-- With no move listed: whether the core moves next while a command is pending. -/
  coreNext : Bool
deriving DecidableEq, Repr

/-- One instance, for failure reports of type `δ` (R3). The fields `cmd` to `refusals` are the record of R11; an operand or result register that is
`none` holds no value, which is a state of the spec's own (R11, R12, R28). -/
structure State.Of (δ : Type) where
  /-- CMD (R15). -/
  cmd : Word32
  /-- STATUS.BUSY (R16). -/
  busy : Bool
  /-- STATUS.DONE (R16). -/
  done : Bool
  /-- STATUS.ERR (R16). -/
  err : Byte
  /-- WIDTH (R18). -/
  width : Option Word64
  /-- HEIGHT (R18). -/
  height : Option Word64
  /-- OPA (R19). -/
  opa : Option ByteSeq
  /-- OPB (R19). -/
  opb : Option ByteSeq
  /-- CRCOUT (R21). -/
  crcout : Option Word32
  /-- OUT (R22). -/
  out : Option ByteSeq
  /-- ERRDETAIL (R23). -/
  errdetail : Option δ
  /-- The faults recorded, oldest first, never removed (R96). -/
  faults : List Fault
  /-- The refusals recorded, oldest first, never removed (R98). -/
  refusals : List Refusal
  /-- The bound configuration (R3); no step changes it (R108). -/
  cfg : Binding δ
  /-- The host agent. -/
  host : HostAgent δ
  /-- The order of moves. -/
  sched : Schedule
deriving DecidableEq, Repr

/-- The instance the machine runs: the one whose failure reports are of the type a model instance names. -/
abbrev State : Type := State.Of Detail

/-- The machine right after reset (R28, R107), with nothing recorded (95_test_vectors.md L3), the default
configuration (unbounded capacities, D6; the unknown compressor), no host program and no move listed. The values of
the model's own fields are a DESIGN CHOICE, safe (log entries 2, 3, 7, 8 and 10); the empty lists are log entry 15, and
the registers that hold no value are the spec's (log entry 5). -/
def State.reset : State where
  cmd := 0
  busy := false
  done := false
  err := 0
  width := none
  height := none
  opa := none
  opb := none
  crcout := none
  out := none
  errdetail := none
  faults := []
  refusals := []
  cfg := { compressor := { pinned := [], otherwise := none }, capA := none, capB := none, capOut := none }
  host := { program := [], line := 0, sawBusy := false, replies := [] }
  sched := { turns := [], coreNext := false }

end Sys2Proof.Machine
end

