-- ==== Sys2Proof/Machine/Flags.lean ====
section
/-! DEFINITION. The STATUS fields, the block's only flags (10_state.md R17): the STATUS word (R16), and what a
command's start, a command's end and reset do to them. -/

namespace Sys2Proof.Machine

variable {δ : Type}

/-- STATUS as a word (R16): BUSY in bit 0, DONE in bit 1, ERR in bits 15:8, every other bit 0. -/
def statusWord (s : State.Of δ) : Word32 :=
  (BitVec.ofBool s.busy).setWidth 32 ||| ((BitVec.ofBool s.done).setWidth 32 <<< 1) ||| (s.err.setWidth 32 <<< 8)

/-- The number STATUS.ERR takes for an error (R92). -/
def errorNumber : ErrorCode → Byte
  | .invalidRaster => 1
  | .invalidDimensions => 2
  | .invalidChunkType => 3
  | .compressionFailure => 4
  | .illegalCommand => 5

/-- The flags after a host write to CMD (R17, R24). -/
def flagsStarted (s : State.Of δ) : State.Of δ := { s with busy := true, done := false, err := 0 }

/-- The flags after a command that ended with the given ERR value, 0 on success (R17, R25). -/
def flagsEnded (code : Byte) (s : State.Of δ) : State.Of δ := { s with busy := false, done := true, err := code }

/-- The flags after reset (R17, R107). -/
def flagsReset (s : State.Of δ) : State.Of δ := { s with busy := false, done := false, err := 0 }

end Sys2Proof.Machine
end

