-- ==== Sys2Proof/Machine/Ops.lean ====
section
/-! DEFINITION. The named operations over the registers: register writes, a command's start (10_state.md R24), its
error entry (60_exceptions.md R93, the block's whole "trap entry"), its end (R25), the record of faults and
refusals (R96, R98), and reset (70_reset_and_hazards.md R107). The block has no memory (20_memory.md R29), so
there is no operation over one. -/

namespace Sys2Proof.Machine

variable {δ : Type}

/-- CMD takes all 32 bits as written, legal or not (R15). -/
def setCmd (v : Word32) (s : State.Of δ) : State.Of δ := { s with cmd := v }

/-- WIDTH takes the value written (R18). -/
def setWidthReg (v : Word64) (s : State.Of δ) : State.Of δ := { s with width := some v }

/-- HEIGHT takes the value written (R18). -/
def setHeightReg (v : Word64) (s : State.Of δ) : State.Of δ := { s with height := some v }

/-- OPA takes the whole sequence, length included (R19, R37). -/
def setOpa (b : ByteSeq) (s : State.Of δ) : State.Of δ := { s with opa := some b }

/-- OPB takes the whole sequence, length included (R19, R37). -/
def setOpb (b : ByteSeq) (s : State.Of δ) : State.Of δ := { s with opb := some b }

/-- CRCOUT takes a CRC32 command's result (R21). -/
def setCrcout (c : Word32) (s : State.Of δ) : State.Of δ := { s with crcout := some c }

/-- OUT takes a whole result (R22, R38). -/
def setOut (b : ByteSeq) (s : State.Of δ) : State.Of δ := { s with out := some b }

/-- ERRDETAIL takes the compressor's report, unchanged (R23). -/
def setErrdetail (d : δ) (s : State.Of δ) : State.Of δ := { s with errdetail := some d }

/-- The result registers lose their values (R24, R107). -/
def clearResults (s : State.Of δ) : State.Of δ := { s with crcout := none, out := none, errdetail := none }

/-- The operand registers lose their values (R107). -/
def clearOperands (s : State.Of δ) : State.Of δ := { s with width := none, height := none, opa := none, opb := none }

/-- A fault is appended to the list and nothing else changes (R96). -/
def recordFault (r : Fault) (s : State.Of δ) : State.Of δ := { s with faults := s.faults ++ [r] }

/-- A refusal is appended to the list and nothing else changes (R98). -/
def recordRefusal (r : Refusal) (s : State.Of δ) : State.Of δ := { s with refusals := s.refusals ++ [r] }

/-- The host agent's own state. -/
def setHost (h : HostAgent δ) (s : State.Of δ) : State.Of δ := { s with host := h }

/-- The order of moves. -/
def setSched (c : Schedule) (s : State.Of δ) : State.Of δ := { s with sched := c }

/-- R24: a host write of CMD in the state IDLE. The operand registers are unchanged. It is also all there is of a
return from an error (R95): the next command starts afresh. -/
def startCommand (v : Word32) (s : State.Of δ) : State.Of δ := clearResults (flagsStarted (setCmd v s))

/-- R93: a command ends in an error. STATUS says so; no result is written. -/
def raiseError (e : ErrorCode) (s : State.Of δ) : State.Of δ := flagsEnded (errorNumber e) s

/-- R71 and R93: a command ends in `CompressionFailure`, with the report in ERRDETAIL. -/
def raiseCompressionFailure (d : δ) (s : State.Of δ) : State.Of δ :=
  setErrdetail d (raiseError .compressionFailure s)

/-- R25's arms: what the core writes for a command's result. A fault or a refusal writes nothing and is handed on
by its name. -/
def finish (s : State.Of δ) : CmdResult δ → Host.Outcome (State.Of δ) Fault Refusal
  | .okCrc c => .next (setCrcout c (flagsEnded 0 s))
  | .okOut b => .next (setOut b (flagsEnded 0 s))
  | .error e => .next (raiseError e s)
  | .errorCf d => .next (raiseCompressionFailure d s)
  | .fault r => .fault r
  | .refuse r => .refused r

/-- R25, R26, R96, R98: the state after an attempted access or command: the next state, or the old one with the
fault or the refusal recorded. DESIGN CHOICE, unsafe without the premise `State.Of.Clean` (log entry 6). -/
def record (s : State.Of δ) : Host.Outcome (State.Of δ) Fault Refusal → State.Of δ
  | .next t => t
  | .fault r => recordFault r s
  | .refused r => recordRefusal r s

/-- R107: the platform's reset, in either state of the command machine. The lists of faults and refusals are
kept, and the configuration with them (R108). -/
def platformReset (s : State.Of δ) : State.Of δ := clearResults (clearOperands (flagsReset (setCmd 0 s)))

end Sys2Proof.Machine
end

