-- ==== Sys2Proof/Machine/Operands.lean ====
section
/-! DEFINITION. The operands of the commands: which registers a command reads (30_encoding.md R50), reading them,
buffer reads (20_memory.md R36), the dimension check (44_header_builder.md R80), capacities (20_memory.md R38),
big-endian words (00_scope.md R6) and type tags (00_scope.md R7). -/

namespace Sys2Proof.Machine

variable {δ : Type}

/-- `s[i..i+n)` (R5). -/
def slice (s : ByteSeq) (i n : Nat) : ByteSeq := (s.drop i).take n

/-- `u32be(v)` (R6). Its argument is a 32-bit word, so the case R6 leaves undefined cannot be formed. -/
def u32be (v : Word32) : ByteSeq :=
  [v.extractLsb' 24 8, v.extractLsb' 16 8, v.extractLsb' 8 8, v.extractLsb' 0 8]

/-- `tag("IHDR")` (R7). -/
def tagIhdr : ByteSeq := [0x49, 0x48, 0x44, 0x52]

/-- `tag("IDAT")` (R7). -/
def tagIdat : ByteSeq := [0x49, 0x44, 0x41, 0x54]

/-- `tag("IEND")` (R7). -/
def tagIend : ByteSeq := [0x49, 0x45, 0x4E, 0x44]

/-- `BufRead(B, i, n)` (R36) on the contents of a buffer register; reading a register that holds no value is the fault
R9 and R96 name. -/
def bufRead (buf : Option ByteSeq) (i n : Nat) : Except Fault ByteSeq :=
  match buf with
  | none => .error .unwrittenOperand
  | some b => if i + n ≤ b.length then .ok (slice b i n) else .error .bufferIndex

/-- `dims_ok(w, h)` over the signed values of WIDTH and HEIGHT (R80). -/
def dimsOk (w h : Int) : Bool :=
  1 ≤ w && w ≤ (Config.dimMax : Int) && 1 ≤ h && h ≤ (Config.dimMax : Int)

/-- A length over a capacity (R37, R38). -/
def exceeds (cap : Option Nat) (n : Nat) : Bool :=
  match cap with
  | none => false
  | some c => c < n

/-- The last check of FRAME, CHUNK and ENCODE (R94 row 7): a result longer than CAP_OUT is refused. -/
def withinOut (capOut : Option Nat) (r : ByteSeq) : CmdResult δ :=
  if exceeds capOut r.length then .refuse .capacityExceeded else .okOut r

/-- The operand registers a command reads (R50's table). -/
def readsOf : Instr → List Reg
  | .crc32 => [.opa]
  | .frame => [.width, .height, .opa]
  | .chunk => [.opa, .opb]
  | .ihdr _ _ => [.width, .height]
  | .encode => [.width, .height, .opa]

/-- WIDTH and HEIGHT as integers (R18); the fault R50 and R51 state where either holds no value. -/
def readDims (s : State.Of δ) (k : Int → Int → CmdResult δ) : CmdResult δ :=
  match s.width, s.height with
  | some w, some h => k w.toInt h.toInt
  | _, _ => .fault .unwrittenOperand

/-- A buffer register's whole sequence; the fault R50 and R51 state where it holds no value. -/
def readBuffer (buf : Option ByteSeq) (k : ByteSeq → CmdResult δ) : CmdResult δ :=
  match buf with
  | some b => k b
  | none => .fault .unwrittenOperand

end Sys2Proof.Machine
end

