-- ==== Sys2Proof/Machine/Crc32.lean ====
section
/-! DEFINITION. The CRC-32 Engine (40_crc32.md): the bit-serial function (R56), the table-driven form (R57) and the
command CRC32 (R61). -/

namespace Sys2Proof.Machine

variable {δ : Type}

/-- The reflected polynomial (R56). -/
def crcPoly : Word32 := 0xEDB88320

/-- One bit step (R56). -/
def crcBit (c : Word32) : Word32 :=
  if c &&& 1 = 1 then (c >>> 1) ^^^ crcPoly else c >>> 1

/-- `n` bit steps. -/
def crcBits : Nat → Word32 → Word32
  | 0, c => c
  | n + 1, c => crcBits n (crcBit c)

/-- One byte enters at bits 7:0, then eight bit steps (R31, R56). -/
def crcByte (c : Word32) (b : Byte) : Word32 := crcBits 8 (c ^^^ b.setWidth 32)

/-- `crc32(s)` (R56): initial value, bytes in index order, final complement. -/
def crc32 (s : ByteSeq) : Word32 := s.foldl crcByte 0xFFFFFFFF ^^^ 0xFFFFFFFF

/-- `T[n]` (R57). -/
def crcTable (n : Byte) : Word32 := crcBits 8 (n.setWidth 32)

/-- One byte of the table form (R57): the index is the low byte of `c ⊕ b`. -/
def crcTableByte (c : Word32) (b : Byte) : Word32 :=
  crcTable ((c ^^^ b.setWidth 32).setWidth 8) ^^^ (c >>> 8)

/-- `crc32_table(s)` (R57). -/
def crc32Table (s : ByteSeq) : Word32 := s.foldl crcTableByte 0xFFFFFFFF ^^^ 0xFFFFFFFF

/-- `crc32_cmd()` (R61). -/
def crc32Cmd (s : State.Of δ) : CmdResult δ :=
  readBuffer s.opa fun b => .okCrc (crc32 b)

/-- CRC32: CRCOUT takes the CRC-32 of OPA (R61). -/
def execCrc32 (s : State.Of δ) : Host.Outcome (State.Of δ) Fault Refusal := finish s (crc32Cmd s)

end Sys2Proof.Machine
end

