-- ==== Sys2Proof/Machine/Chunk.lean ====
section
/-! DEFINITION. The Chunk Serializer (43_chunk_serializer.md): the function (R75) and the command CHUNK (R79). -/

namespace Sys2Proof.Machine

variable {δ : Type}

/-- `chunk(t, d)` (R75): length, tag, data, and the CRC of tag and data. -/
def chunk (t d : ByteSeq) : ByteSeq :=
  u32be (BitVec.ofNat 32 d.length) ++ t ++ d ++ u32be (crc32 (t ++ d))

/-- Chunk data longer than CHUNK_DATA_MAX, which has no meaning (R78). -/
def dataTooLong (d : ByteSeq) : Bool := Config.chunkDataMax < d.length

/-- `chunk_cmd()` (R79). -/
def chunkCmd (s : State.Of δ) : CmdResult δ :=
  readBuffer s.opa fun t => readBuffer s.opb fun d =>
    if t.length ≠ 4 then .error .invalidChunkType
    else if dataTooLong d then .refuse .chunkDataTooLong
    else withinOut s.cfg.capOut (chunk t d)

/-- CHUNK: OUT takes the chunk of type tag OPA and data OPB (R79). -/
def execChunk (s : State.Of δ) : Host.Outcome (State.Of δ) Fault Refusal := finish s (chunkCmd s)

end Sys2Proof.Machine
end

