-- ==== Sys2Proof/Machine/Frame.lean ====
section
/-! DEFINITION. The Scanline Framer (41_scanline_framer.md): the function (R62), the framer as the core runs it,
reading rows through `BufRead` (20_memory.md R36), and the command FRAME (R66). -/

namespace Sys2Proof.Machine

variable {δ : Type}

/-- Row y with the filter-type byte 0 before it (R62, R64). The row's bytes are taken verbatim (R65). -/
def framedRow (row : ByteSeq) : ByteSeq := 0x00 :: row

/-- `frame(w, h, s)` (R62). -/
def frame (w h : Nat) (s : ByteSeq) : ByteSeq :=
  (List.range h).flatMap fun y => framedRow (slice s (y * w * 4) (w * 4))

/-- R62's loop as the core runs it: the first `h` rows, each read through `BufRead` (R36). -/
def frameRows (buf : Option ByteSeq) (w : Nat) : Nat → Except Fault ByteSeq
  | 0 => .ok []
  | y + 1 =>
    match frameRows buf w y, bufRead buf (y * w * 4) (w * 4) with
    | .ok r, .ok row => .ok (r ++ framedRow row)
    | .error f, _ => .error f
    | _, .error f => .error f

/-- The checks FRAME and ENCODE share (R66, R85 step 1, C1): dimensions, then length as an exact product (R8);
then the framer. -/
def framedThen (w h : Int) (b : ByteSeq) (k : ByteSeq → CmdResult δ) : CmdResult δ :=
  if dimsOk w h = false then .error .invalidDimensions
  else if (b.length : Int) ≠ w * h * 4 then .error .invalidRaster
  else
    match frameRows (some b) w.toNat h.toNat with
    | .error f => .fault f
    | .ok x => k x

/-- `frame_cmd()` (R66). -/
def frameCmd (s : State.Of δ) : CmdResult δ :=
  readDims s fun w h => readBuffer s.opa fun b => framedThen w h b (withinOut s.cfg.capOut)

/-- FRAME: OUT takes the scanline stream of the raster (R66). -/
def execFrame (s : State.Of δ) : Host.Outcome (State.Of δ) Fault Refusal := finish s (frameCmd s)

end Sys2Proof.Machine
end

