-- ==== Sys2Proof/Machine/Ihdr.lean ====
section
/-! DEFINITION. The Header Builder (44_header_builder.md): the payload (R81) and the command IHDR (R82). -/

namespace Sys2Proof.Machine

variable {δ : Type}

/-- `ihdr_payload(w, h, bd, ct)` (R81). The last three bytes are the compression, filter and interlace methods,
fixed at 0. -/
def ihdrPayload (w h : Int) (bd ct : Byte) : ByteSeq :=
  u32be (BitVec.ofInt 32 w) ++ u32be (BitVec.ofInt 32 h) ++ [bd, ct, 0x00, 0x00, 0x00]

/-- `ihdr_cmd()` (R82). Field values with no legal word are the error of R52, checked before any operand (R49).
DEDUCED, safe (log entry 14). -/
def ihdrCmd (bd ct : Byte) (s : State.Of δ) : CmdResult δ :=
  if bd ≠ Config.bitDepth ∨ ct ≠ Config.colorType then .error .illegalCommand
  else readDims s fun w h =>
    if dimsOk w h = false then .error .invalidDimensions else .okOut (ihdrPayload w h bd ct)

/-- IHDR: OUT takes the 13-byte payload (R82). -/
def execIhdr (bd ct : Byte) (s : State.Of δ) : Host.Outcome (State.Of δ) Fault Refusal := finish s (ihdrCmd bd ct s)

end Sys2Proof.Machine
end

