-- ==== Sys2Proof/Machine/Encode.lean ====
section
/-! DEFINITION. The compressor port (42_compressor_port.md R67) and the Container Assembler
(45_container_assembler.md): the constants (R83, R84), the function (R85) and the command ENCODE (R91). -/

namespace Sys2Proof.Machine

variable {δ : Type}

/-- COMPRESS under a bound configuration (R67): the listed result, else the configured one, else the unknown
compressor's. -/
def compressPort (c : Compressor δ) (x : ByteSeq) : CompResult δ :=
  match c.pinned.lookup x with
  | some r => r
  | none =>
    match c.otherwise with
    | some r => r
    | none => Config.compress δ x

/-- `SIG` (R83). -/
def signature : ByteSeq := [0x89, 0x50, 0x4E, 0x47, 0x0D, 0x0A, 0x1A, 0x0A]

/-- `IEND_CHUNK` (R84). -/
def iendChunk : ByteSeq := chunk tagIend []

/-- The file in output order (R85): signature, IHDR, one IDAT with all of z (R86), IEND. -/
def container (w h : Int) (z : ByteSeq) : ByteSeq :=
  signature ++ chunk tagIhdr (ihdrPayload w h Config.bitDepth Config.colorType) ++ chunk tagIdat z ++ iendChunk

/-- The rest of R85 once the scanline stream x is formed: one call of COMPRESS (R70), its failure report (R71),
the two refusals, the file. The bytes z are not looked at (R74). -/
def assembleFile (compress : ByteSeq → CompResult δ) (capOut : Option Nat) (w h : Int) (x : ByteSeq) :
    CmdResult δ :=
  match compress x with
  | .fail d => .errorCf d
  | .ok z => if dataTooLong z then .refuse .chunkDataTooLong else withinOut capOut (container w h z)

/-- `encode_png(w, h, s)` (R85), for any compressor and any type of failure report. -/
def encodePng (compress : ByteSeq → CompResult δ) (capOut : Option Nat) (w h : Int) (b : ByteSeq) :
    CmdResult δ :=
  framedThen w h b (assembleFile compress capOut w h)

/-- `encode_cmd()` (R91). -/
def encodeCmd (s : State.Of δ) : CmdResult δ :=
  readDims s fun w h => readBuffer s.opa fun b => encodePng (compressPort s.cfg.compressor) s.cfg.capOut w h b

/-- ENCODE: OUT takes the whole file (R91). -/
def execEncode (s : State.Of δ) : Host.Outcome (State.Of δ) Fault Refusal := finish s (encodeCmd s)

end Sys2Proof.Machine
end

