-- ==== Sys2Proof/Machine/Dispatch.lean ====
section
/-! DEFINITION. The command a decoded word runs (30_encoding.md R51): one arm per constructor of Instr. -/

namespace Sys2Proof.Machine

def exec (i : Instr) (s : State) : Host.Outcome State Fault Refusal :=
  match i with
  | .crc32 => Sys2Proof.Machine.execCrc32 s
  | .frame => Sys2Proof.Machine.execFrame s
  | .chunk => Sys2Proof.Machine.execChunk s
  | .ihdr bd ct => Sys2Proof.Machine.execIhdr bd ct s
  | .encode => Sys2Proof.Machine.execEncode s

end Sys2Proof.Machine
end

