-- ==== Sys2Proof/Machine/HostPort.lean ====
section
/-! DEFINITION. The host's accesses to the registers (10_state.md R12, R26; 20_memory.md R35, R37): one whole
register each, legal exactly as R12 allows. -/

namespace Sys2Proof.Machine

variable {δ : Type}

/-- A write that R12 allows only while BUSY = 0 (R26 row 1). -/
def whenIdle (s : State.Of δ) (o : Host.Outcome (State.Of δ) Fault Refusal) : Host.Outcome (State.Of δ) Fault Refusal :=
  if s.busy then .fault .hostWriteWhileBusy else o

/-- A write of a buffer register: over its capacity it is refused (R26, R37). -/
def writeBuffer (cap : Option Nat) (b : ByteSeq) (t : State.Of δ) : Host.Outcome (State.Of δ) Fault Refusal :=
  if exceeds cap b.length then .refused .capacityExceeded else .next t

/-- A host write. A CMD write starts a command (R24); an operand write sets that register only. Of a busy
instance and an over-long sequence the former is reported. DESIGN CHOICE, safe (log entry 9). -/
def hostWrite (w : RegWrite δ) (s : State.Of δ) : Host.Outcome (State.Of δ) Fault Refusal :=
  match w with
  | .cmd v => whenIdle s (.next (startCommand v s))
  | .width v => whenIdle s (.next (setWidthReg v s))
  | .height v => whenIdle s (.next (setHeightReg v s))
  | .opa b => whenIdle s (writeBuffer s.cfg.capA b (setOpa b s))
  | .opb b => whenIdle s (writeBuffer s.cfg.capB b (setOpb b s))
  | .status _ => .fault .hostWriteReadOnly
  | .crcout _ => .fault .hostWriteReadOnly
  | .out _ => .fault .hostWriteReadOnly
  | .errdetail _ => .fault .hostWriteReadOnly

/-- The value of a register that may hold none; the fault `ReadNoValue` R26 and R28 state where it does. -/
def heldValue {α : Type} (f : α → RegVal δ) : Option α → Except Fault (RegVal δ)
  | some x => .ok (f x)
  | none => .error .readNoValue

/-- A result register while BUSY = 1 (R26: `HostReadWhileBusy`); it is checked before the value is
(95_test_vectors.md H8). -/
def whenEnded (s : State.Of δ) (o : Except Fault (RegVal δ)) : Except Fault (RegVal δ) :=
  if s.busy then .error .hostReadWhileBusy else o

/-- A host read. No read has a side effect (R35), so it gives a value or a fault and no state. -/
def hostRead (r : Reg) (s : State.Of δ) : Except Fault (RegVal δ) :=
  match r with
  | .cmd => .ok (.word s.cmd)
  | .status => .ok (.word (statusWord s))
  | .width => heldValue .dim s.width
  | .height => heldValue .dim s.height
  | .opa => heldValue .bytes s.opa
  | .opb => heldValue .bytes s.opb
  | .crcout => whenEnded s (heldValue .word s.crcout)
  | .out => whenEnded s (heldValue .bytes s.out)
  | .errdetail => whenEnded s (heldValue .detail s.errdetail)

end Sys2Proof.Machine
end

