-- ==== Sys2Proof/Machine/Turns.lean ====
section
/-! DEFINITION. The moves of the agents: the core's step (10_state.md R25), the host's next line (30_encoding.md
R54), the platform's reset (70_reset_and_hazards.md R107), and which of them moves (20_memory.md R42, R114). -/

namespace Sys2Proof.Machine

variable {δ : Type}

/-- R51's match on a command, for reports of any type. At the type the instance names it is `exec`
(`commandOf_eq_exec`). -/
def commandOf (i : Instr) (s : State.Of δ) : Host.Outcome (State.Of δ) Fault Refusal :=
  match i with
  | .crc32 => execCrc32 s
  | .frame => execFrame s
  | .chunk => execChunk s
  | .ihdr bd ct => execIhdr bd ct s
  | .encode => execEncode s

/-- `exec(R[CMD])` of R51: the decoded command, or the error `IllegalCommand` for every other word, whatever the
operands hold (R52). -/
def coreOutcome (s : State.Of δ) : Host.Outcome (State.Of δ) Fault Refusal :=
  match decode s.cmd with
  | .ok i => commandOf i s
  | .error _ => .next (raiseError .illegalCommand s)

/-- The core's step (R25): enabled exactly while BUSY = 1. A fault or a refusal is recorded and the instance
stays PENDING. -/
def coreMove (s : State.Of δ) : State.Of δ :=
  if s.busy then record s (coreOutcome s) else s

/-- The host goes on to the next line. -/
def nextLine (s : State.Of δ) : State.Of δ := setHost { s.host with line := s.host.line + 1 } s

/-- A host write; a violation is recorded and has no other effect (R26), so the host goes on to its next line. DEDUCED,
safe (log entry 11). -/
def hostWriteMove (w : RegWrite δ) (s : State.Of δ) : State.Of δ := record s (hostWrite w s)

/-- Bit 0 of the STATUS word that was read, which `jbusy` tests (R54); other reads leave it. -/
def busySeen (r : Reg) (s : State.Of δ) : Bool :=
  match r with
  | .status => (statusWord s).getLsbD 0
  | _ => s.host.sawBusy

/-- A host read; the host keeps what it gave, and a violation is recorded (R26). -/
def hostReadMove (r : Reg) (s : State.Of δ) : State.Of δ :=
  match hostRead r s with
  | .ok v => setHost { s.host with sawBusy := busySeen r s, replies := s.host.replies ++ [⟨r, v⟩] } s
  | .error f => recordFault f s

/-- The host executes one line (R54). What `jbusy` does before any STATUS read is a DESIGN CHOICE, unsafe for a script
that does so (log entry 10). -/
def runLine (l : HostLine δ) (s : State.Of δ) : State.Of δ :=
  match l with
  | .wr w => nextLine (hostWriteMove w s)
  | .rd r => nextLine (hostReadMove r s)
  | .cmd m => nextLine (hostWriteMove (.cmd (legalWord m)) s)
  | .cmdRaw v => nextLine (hostWriteMove (.cmd v) s)
  | .jbusy t => if s.host.sawBusy then setHost { s.host with line := t } s else nextLine s

/-- The host's move: its next line, or nothing once the program has ended (R116). -/
def hostMove (s : State.Of δ) : State.Of δ :=
  match s.host.program[s.host.line]? with
  | some l => runLine l s
  | none => s

/-- Who moves next: the first turn listed; with none listed, host and core alternate while a command is pending,
so that a pending command is taken (R114). DESIGN CHOICE, unsafe for claims of progress (log entry 8). -/
def mover (s : State.Of δ) : Turn :=
  match s.sched.turns with
  | t :: _ => t
  | [] => if s.busy && s.sched.coreNext then .core else .host

/-- The schedule after a move: the listed turn is used up, and the core is next after the host. -/
def scheduleAfter (t : Turn) (c : Schedule) : Schedule :=
  { turns := c.turns.tail, coreNext := decide (t = .host) }

/-- The move of an agent. -/
def moveOf (t : Turn) (s : State.Of δ) : State.Of δ :=
  match t with
  | .host => hostMove s
  | .core => coreMove s
  | .reset => platformReset s

/-- One step of the total order of R42: the mover moves. -/
def takeTurn (s : State.Of δ) : State.Of δ :=
  setSched (scheduleAfter (mover s) s.sched) (moveOf (mover s) s)

/-- A value kept, or the given one where a register holds none. -/
def heldOr {α : Type} (x : α) (o : Option α) : Option α :=
  match o with
  | some y => some y
  | none => some x

/-- The operand writes that must precede a command (R109 step 3), for the registers `rs` it reads that hold no
value: a 1 by 1 raster of four zero bytes (four bytes are also a type tag) and empty chunk data. Registers that
hold a value keep it. DESIGN CHOICE, safe (log entry 12). -/
def fillOperands (rs : List Reg) (s : State.Of δ) : State.Of δ :=
  { s with
    width := if Reg.width ∈ rs then heldOr 1 s.width else s.width
    height := if Reg.height ∈ rs then heldOr 1 s.height else s.height
    opa := if Reg.opa ∈ rs then heldOr [0, 0, 0, 0] s.opa else s.opa
    opb := if Reg.opb ∈ rs then heldOr [] s.opb else s.opb }

/-- The registers the word `v` reads: none where it is no command (R52). -/
def readsOfWord (v : Word32) : List Reg :=
  match decode v with
  | .ok i => readsOf i
  | .error _ => []

/-- The instance PENDING with word `v`, its operands held, and the core to move next. -/
def pendingWith (v : Word32) (s : State.Of δ) : State.Of δ :=
  let t := startCommand v (fillOperands (readsOfWord v) s)
  setSched { t.sched with turns := .core :: t.sched.turns } t

end Sys2Proof.Machine
end

