-- ==== Sys2Proof/Machine/Step.lean ====
section
/-! DEFINITION. The step of the machine (20_memory.md R41, R42): one move of one agent. A fault or a refusal of the
model is RECORDED in the state, as 10_state.md R25 and R26 say, and the machine goes on, so every step answers a
next state; `exec` and `coreOutcome` keep the three outcomes apart. DESIGN CHOICE, unsafe
without the premise `State.Of.Clean` (log entry 6). -/

namespace Sys2Proof.Machine

/-- One step: the mover's move. -/
def step (s : State) : Host.Outcome State Fault Refusal := .next (takeTurn s)

/-- The block fetches no instruction (R45): the nearest thing is the value CMD holds at the core's step. This is
the state after a host has written the operands a command needs (R109 step 3) and then the word to CMD (R24),
with the core to move next. Log entry 12 says how a program comes to run from reset. -/
def State.withFetchWord (s : State) (nbits w : Nat) : State :=
  pendingWith (BitVec.ofNat 32 (w % 2 ^ nbits)) s

end Sys2Proof.Machine
end

