-- ==== Sys2Proof/Machine/Platform.lean ====
section
/-! DEFINITION. A platform of N_INSTANCES instances (60_exceptions.md R104): each has its own registers, core and
host; they share nothing but the pure function COMPRESS. DEDUCED, unsafe where two hosts reach one instance (log
entry 16). -/

namespace Sys2Proof.Machine

/-- The instances of a platform. -/
structure Platform where
  instances : List State
deriving DecidableEq, Repr

/-- N_INSTANCES is at least 1 (R3), and every instance has the one COMPRESS (R104). -/
def platformAdmitted (p : Platform) : Bool :=
  match p.instances with
  | [] => false
  | s :: rest => rest.all fun t => t.cfg.compressor = s.cfg.compressor

/-- The instance after a step of its own. -/
def steppedInstance (s : State) : State :=
  match step s with
  | .next t => t
  | .fault r => recordFault r s
  | .refused r => recordRefusal r s

/-- One step of instance number `k`, if there is one. -/
def stepInstance (k : Nat) (p : Platform) : Platform := { instances := p.instances.modify k steppedInstance }

end Sys2Proof.Machine
end

