-- ==== Sys2Proof/Safety.lean ====
section
/-! DEFINITION. What counts as a safe run, in the terms claims use: a clean and a final instance
(70_reset_and_hazards.md R116), the invariants of 10_state.md R11 and R16, the named premise `ZlibSound`
(42_compressor_port.md R68), and undoing the framer (45_container_assembler.md R90). -/

namespace Sys2Proof.Machine

/-- Nothing is recorded: the premise of a claim about a program (60_exceptions.md section 2). -/
abbrev State.Of.Clean {δ : Type} (s : State.Of δ) : Prop := s.faults = [] ∧ s.refusals = []

/-- R116: the instance is final exactly when BUSY = 0 and nothing is recorded. -/
abbrev State.Of.Final {δ : Type} (s : State.Of δ) : Prop := s.busy = false ∧ s.Clean

/-- R116: the host has executed its last line. -/
abbrev State.Of.Ended {δ : Type} (s : State.Of δ) : Prop := s.host.program.length ≤ s.host.line

/-- R11's invariant: a pending instance shows nothing of a command. -/
abbrev State.Of.PendingClear {δ : Type} (s : State.Of δ) : Prop :=
  s.busy = true → s.done = false ∧ s.err = 0 ∧ s.crcout = none ∧ s.out = none ∧ s.errdetail = none

/-- R16's legal field combinations: after reset, pending, ended. -/
abbrev State.Of.StatusLegal {δ : Type} (s : State.Of δ) : Prop :=
  (s.busy = false ∧ s.done = false ∧ s.err = 0) ∨
  (s.busy = true ∧ s.done = false ∧ s.err = 0) ∨
  (s.busy = false ∧ s.done = true ∧ s.err.toNat ≤ 5)

/-- What the result registers hold agrees with STATUS (R21 to R23, R92): CRCOUT or OUT after a success and not
both, ERRDETAIL after `CompressionFailure` and then only. -/
abbrev State.Of.ResultsMatch {δ : Type} (s : State.Of δ) : Prop :=
  (s.crcout ≠ none ∨ s.out ≠ none → s.done = true ∧ s.err = 0) ∧
  (s.crcout = none ∨ s.out = none) ∧
  (s.done = true ∧ s.err = 0 → s.crcout ≠ none ∨ s.out ≠ none) ∧
  (s.errdetail ≠ none ↔ s.done = true ∧ s.err = 4)

/-- A buffer register holds no value, or one no longer than its capacity (R12). -/
def fits (cap : Option Nat) (buf : Option ByteSeq) : Bool :=
  match buf with
  | none => true
  | some b => !exceeds cap b.length

/-- The configuration is one the model admits: CAP_OUT leaves room for IHDR's 13 bytes (R82, R109 step 1). -/
abbrev Admitted {δ : Type} (c : Binding δ) : Prop := exceeds c.capOut 13 = false

/-- The buffers fit their capacities (R12), in an admitted configuration. -/
abbrev State.Of.BuffersFit {δ : Type} (s : State.Of δ) : Prop :=
  Admitted s.cfg ∧ fits s.cfg.capA s.opa = true ∧ fits s.cfg.capB s.opb = true ∧ fits s.cfg.capOut s.out = true

/-- The invariant of an instance. -/
abbrev State.Of.Inv {δ : Type} (s : State.Of δ) : Prop :=
  s.PendingClear ∧ s.StatusLegal ∧ s.ResultsMatch ∧ s.BuffersFit

/-- The notions R68 names and the spec does not define (91_not_in_source.md): predicates that a claim takes as an
argument, so that none of them has a meaning here. -/
structure ZlibFormat where
  /-- The bytes are a zlib header. -/
  header : ByteSeq → Prop
  /-- The bytes are DEFLATE blocks. -/
  deflateBlocks : ByteSeq → Prop
  /-- For an input and its blocks, the bytes are their Adler-32 checksum. -/
  adler32 : ByteSeq → ByteSeq → ByteSeq → Prop
  /-- The inflater is a conformant zlib-compatible one. -/
  conformant : (ByteSeq → Option ByteSeq) → Prop

/-- `z` is a zlib-framed DEFLATE stream for the input `x`, in R68's words: a 2-byte zlib header, DEFLATE blocks, a
4-byte trailing Adler-32 checksum. -/
def zlibFramed (fmt : ZlibFormat) (x z : ByteSeq) : Prop :=
  ∃ hdr blocks sum : ByteSeq, z = hdr ++ blocks ++ sum ∧ hdr.length = 2 ∧ fmt.header hdr ∧
    fmt.deflateBlocks blocks ∧ sum.length = 4 ∧ fmt.adler32 x blocks sum

/-- `ZlibSound` (R68), the named premise of a claim about a compressor: whatever it returns is a zlib-framed DEFLATE
stream that any conformant inflater decodes back to the exact input. The sentence is R68's; the notions in it that the
spec leaves without a meaning are the argument `fmt`. DESIGN CHOICE, safe (log entry 19). -/
def ZlibSound {δ : Type} (fmt : ZlibFormat) (compress : ByteSeq → CompResult δ) : Prop :=
  ∀ x z, compress x = .ok z → zlibFramed fmt x z ∧ ∀ inflate, fmt.conformant inflate → inflate z = some x

/-- R90: the filter byte taken off each group of `1 + 4w` bytes of a scanline stream of `h` rows. -/
def unframe (w h : Nat) (r : ByteSeq) : ByteSeq :=
  (List.range h).flatMap fun y => slice r (y * (1 + w * 4) + 1) (w * 4)

end Sys2Proof.Machine
end

