-- ==== Sys2Proof/Certificates/Slice0/Obligations.lean ====
section
/-! DEFINITION. The statements for the provers. Dimensions are the signed values of WIDTH and HEIGHT (R18), the
bounds are spelled out as numbers, and results are given as the whole next state, so that each such statement is
also the instruction's frame. -/

open Sys2Proof Sys2Proof.Machine

/-! ## The command word -/

/-- The decoder accepts exactly the encodings of the well-formed commands: no bit of a word is dropped, and no word
has two meanings (R48, R51). -/
def Obligations.DecodeAcceptsExactlyEncodings : Prop :=
  ∀ (v : Word32) (i : Instr), decode v = .ok i ↔ i.wellFormed = true ∧ encode i = v

/-- R52: five words are legal, and a word is illegal exactly under the rule's field conditions. -/
def Obligations.LegalWordsAreExactlyFive : Prop :=
  ∀ v : Word32,
    ((∃ i, decode v = .ok i) ↔
      v = 0x00000001 ∨ v = 0x00000002 ∨ v = 0x00000003 ∨ v = 0x00060804 ∨ v = 0x00000005) ∧
    ((∃ e, decode v = .error e) ↔
      rsvField v ≠ 0 ∨ opField v = 0x00 ∨ 0x06 ≤ opField v ∨
      (opField v = 0x04 ∧ (bdField v ≠ 8 ∨ ctField v ≠ 6)) ∨
      (opField v ≠ 0x04 ∧ (bdField v ≠ 0 ∨ ctField v ≠ 0)))

/-- The words of R48's table decode to their commands, and words of the vectors of 95_test_vectors.md are refused. -/
def Obligations.SampleWordsDecode : Prop :=
  decode 0x00000001 = .ok .crc32 ∧ decode 0x00000002 = .ok .frame ∧ decode 0x00000003 = .ok .chunk ∧
  decode 0x00060804 = .ok (.ihdr 8 6) ∧ decode 0x00000005 = .ok .encode ∧
  decode 0x00000000 = .error .unknownOpcode ∧ decode 0x00020804 = .error .depthOrColour ∧
  decode 0x00060803 = .error .fieldsNotZero ∧ decode 0x01060804 = .error .reservedNotZero

/-! ## CRC32 -/

/-- R61: CRC32 completes for every OPA that holds a value and writes CRCOUT and STATUS only. -/
def Obligations.Crc32WritesCrcOfOpa : Prop :=
  ∀ (s : State) (b : ByteSeq), s.opa = some b →
    exec .crc32 s = .next { s with crcout := some (crc32 b), busy := false, done := true, err := 0 }

/-- R58: the CRC of the empty sequence is 0, as a value and as the command's result. -/
def Obligations.Crc32OfEmptyIsZero : Prop :=
  crc32 [] = 0x00000000 ∧
  ∀ s : State, s.opa = some [] →
    exec .crc32 s = .next { s with crcout := some 0, busy := false, done := true, err := 0 }

/-- R57: the table-driven engine gives the same value for every input. -/
def Obligations.Crc32TableFormAgrees : Prop :=
  ∀ s : ByteSeq, crc32Table s = crc32 s

/-- From R56: two sequences that differ in one byte have different CRCs. -/
def Obligations.Crc32DetectsOneByteChange : Prop :=
  ∀ (p q : ByteSeq) (x y : Byte), x ≠ y → crc32 (p ++ x :: q) ≠ crc32 (p ++ y :: q)

/-- R56: the value is that of the bit-serial loop on integers: initial value, each byte into bits 7:0, eight
conditional shifts by the reflected polynomial, final complement. -/
def Obligations.Crc32IsTheBitSerialLoop : Prop :=
  ∀ s : ByteSeq,
    (crc32 s).toNat =
      (s.foldl (fun (c : Nat) (b : Byte) => (fun n => if n % 2 = 1 then n / 2 ^^^ 0xEDB88320 else n / 2)^[8]
        (c ^^^ b.toNat)) 0xFFFFFFFF) ^^^ 0xFFFFFFFF

/-- R61's worked example and its one-byte corner case, as the command's results. -/
def Obligations.Crc32WorkedExamples : Prop :=
  ∀ s : State,
    (s.opa = some [0x31, 0x32, 0x33, 0x34, 0x35, 0x36, 0x37, 0x38, 0x39] →
      exec .crc32 s = .next { s with crcout := some 0xCBF43926, busy := false, done := true, err := 0 }) ∧
    (s.opa = some [0x00] →
      exec .crc32 s = .next { s with crcout := some 0xD202EF8D, busy := false, done := true, err := 0 })

/-! ## FRAME -/

/-- R66: FRAME completes on a raster with legal dimensions and the exact length whose stream fits, and writes OUT
and STATUS only. -/
def Obligations.FrameWritesScanlineStream : Prop :=
  ∀ (s : State) (w h : Word64) (b : ByteSeq),
    s.width = some w → s.height = some h → s.opa = some b →
    1 ≤ w.toInt → w.toInt ≤ 4294967295 → 1 ≤ h.toInt → h.toInt ≤ 4294967295 →
    (b.length : Int) = w.toInt * h.toInt * 4 →
    (∀ c, s.cfg.capOut = some c → h.toNat * (1 + w.toNat * 4) ≤ c) →
    exec .frame s =
      .next { s with out := some (frame w.toNat h.toNat b), busy := false, done := true, err := 0 }

/-- R63, R64: the length of the scanline stream, the filter byte 0 before each row, each row's bytes in place. -/
def Obligations.FramedStreamBytes : Prop :=
  ∀ (w h : Nat) (b : ByteSeq), 1 ≤ w → 1 ≤ h → b.length = w * h * 4 →
    (frame w h b).length = h * (1 + w * 4) ∧
    ∀ y, y < h →
      (frame w h b)[y * (1 + w * 4)]? = some 0x00 ∧
      ∀ k, k < w * 4 → (frame w h b)[y * (1 + w * 4) + 1 + k]? = b[y * w * 4 + k]?

/-- R90's share of the block: taking the filter byte off each group gives back the raster. -/
def Obligations.UnframingGivesBackTheRaster : Prop :=
  ∀ (w h : Nat) (b : ByteSeq), 1 ≤ w → 1 ≤ h → b.length = w * h * 4 → unframe w h (frame w h b) = b

/-- R80: the dimension check over the signed 64-bit values is the range 1..2^32 - 1. -/
def Obligations.DimensionCheckIsTheRange : Prop :=
  ∀ w h : Word64, dimsOk w.toInt h.toInt = true ↔
    (1 ≤ w.toInt ∧ w.toInt ≤ 4294967295) ∧ (1 ≤ h.toInt ∧ h.toInt ≤ 4294967295)

/-- R94 rows 3 and 4: FRAME and ENCODE report bad dimensions first, whatever the length, then a wrong length; the
error is all they write. -/
def Obligations.RasterErrorsInOrder : Prop :=
  ∀ (i : Instr) (s : State) (w h : Word64) (b : ByteSeq),
    i = .frame ∨ i = .encode →
    s.width = some w → s.height = some h → s.opa = some b →
    if 1 ≤ w.toInt ∧ w.toInt ≤ 4294967295 ∧ 1 ≤ h.toInt ∧ h.toInt ≤ 4294967295 then
      (b.length : Int) ≠ w.toInt * h.toInt * 4 →
        exec i s = .next { s with busy := false, done := true, err := 1 }
    else exec i s = .next { s with busy := false, done := true, err := 2 }

/-! ## CHUNK -/

/-- R6: a 32-bit word as four bytes, most significant first. -/
def Obligations.U32beIsBigEndian : Prop :=
  ∀ v : Word32,
    u32be v = [BitVec.ofNat 8 (v.toNat / 2 ^ 24), BitVec.ofNat 8 (v.toNat / 2 ^ 16),
      BitVec.ofNat 8 (v.toNat / 2 ^ 8), BitVec.ofNat 8 v.toNat] ∧
    (u32be v).foldl (fun n b => n * 256 + b.toNat) 0 = v.toNat

/-- R79: CHUNK completes on any four-byte tag and data within the limits, and writes OUT and STATUS only. -/
def Obligations.ChunkWritesSerializedChunk : Prop :=
  ∀ (s : State) (t d : ByteSeq),
    s.opa = some t → s.opb = some d → t.length = 4 → d.length ≤ 2147483647 →
    (∀ c, s.cfg.capOut = some c → 12 + d.length ≤ c) →
    exec .chunk s =
      .next { s with
        out := some (u32be (BitVec.ofNat 32 d.length) ++ t ++ d ++ u32be (crc32 (t ++ d)))
        busy := false
        done := true
        err := 0 }

/-- R76: the layout of a chunk; its length field and its CRC field read back as numbers. -/
def Obligations.ChunkBytesLayout : Prop :=
  ∀ t d : ByteSeq, t.length = 4 → d.length ≤ 2147483647 →
    (chunk t d).length = 12 + d.length ∧
    (slice (chunk t d) 0 4).foldl (fun n b => n * 256 + b.toNat) 0 = d.length ∧
    slice (chunk t d) 4 4 = t ∧
    slice (chunk t d) 8 d.length = d ∧
    (slice (chunk t d) (8 + d.length) 4).foldl (fun n b => n * 256 + b.toNat) 0 = (crc32 (t ++ d)).toNat

/-- R79, R94: a tag that is not four bytes is the error `InvalidChunkType`, whatever the data. -/
def Obligations.ChunkTagLengthIsChecked : Prop :=
  ∀ (s : State) (t d : ByteSeq), s.opa = some t → s.opb = some d → t.length ≠ 4 →
    exec .chunk s = .next { s with busy := false, done := true, err := 3 }

/-- R78: chunk data longer than 2^31 - 1 bytes is refused, whatever the capacity. -/
def Obligations.ChunkRefusesLongData : Prop :=
  ∀ (s : State) (t d : ByteSeq), s.opa = some t → s.opb = some d → t.length = 4 → 2147483647 < d.length →
    exec .chunk s = .refused .chunkDataTooLong

/-- R38, R94 row 7: a result longer than CAP_OUT is refused, for each of the three commands whose result can be. -/
def Obligations.ResultsOverCapacityAreRefused : Prop :=
  (∀ (s : State) (w h : Word64) (b : ByteSeq) (c : Nat),
    s.width = some w → s.height = some h → s.opa = some b →
    1 ≤ w.toInt → w.toInt ≤ 4294967295 → 1 ≤ h.toInt → h.toInt ≤ 4294967295 →
    (b.length : Int) = w.toInt * h.toInt * 4 →
    s.cfg.capOut = some c → c < h.toNat * (1 + w.toNat * 4) →
    exec .frame s = .refused .capacityExceeded) ∧
  (∀ (s : State) (t d : ByteSeq) (c : Nat),
    s.opa = some t → s.opb = some d → t.length = 4 → d.length ≤ 2147483647 →
    s.cfg.capOut = some c → c < 12 + d.length →
    exec .chunk s = .refused .capacityExceeded) ∧
  (∀ (s : State) (w h : Word64) (b z : ByteSeq) (c : Nat),
    s.width = some w → s.height = some h → s.opa = some b →
    1 ≤ w.toInt → w.toInt ≤ 4294967295 → 1 ≤ h.toInt → h.toInt ≤ 4294967295 →
    (b.length : Int) = w.toInt * h.toInt * 4 →
    compressPort s.cfg.compressor (frame w.toNat h.toNat b) = .ok z → z.length ≤ 2147483647 →
    s.cfg.capOut = some c → c < 57 + z.length →
    exec .encode s = .refused .capacityExceeded)

/-! ## IHDR -/

/-- R82, R81: IHDR completes on legal dimensions, whatever OPA and OPB are, and writes the 13 bytes of the payload to
OUT, and STATUS. That it does so for a CAP_OUT below 13 too, a configuration R82 and R109 do not admit, is the model's
choice (log entry 3). -/
def Obligations.IhdrWritesPayload : Prop :=
  ∀ (s : State) (w h : Word64), s.width = some w → s.height = some h →
    1 ≤ w.toInt → w.toInt ≤ 4294967295 → 1 ≤ h.toInt → h.toInt ≤ 4294967295 →
    exec (.ihdr 8 6) s =
      .next { s with
        out := some
          [BitVec.ofNat 8 (w.toNat / 2 ^ 24), BitVec.ofNat 8 (w.toNat / 2 ^ 16),
           BitVec.ofNat 8 (w.toNat / 2 ^ 8), BitVec.ofNat 8 w.toNat,
           BitVec.ofNat 8 (h.toNat / 2 ^ 24), BitVec.ofNat 8 (h.toNat / 2 ^ 16),
           BitVec.ofNat 8 (h.toNat / 2 ^ 8), BitVec.ofNat 8 h.toNat,
           8, 6, 0, 0, 0]
        busy := false
        done := true
        err := 0 }

/-- R49, R94 rows 1 and 3: another bit depth or colour type is an illegal command whatever the operands hold, even
no value (that the IHDR constructor with such fields answers so is the model's, log entry 14: the decoder never gives
it); with 8 and 6, dimensions out of range are `InvalidDimensions`. -/
def Obligations.IhdrErrorsInOrder : Prop :=
  (∀ (s : State) (bd ct : Byte), bd ≠ 8 ∨ ct ≠ 6 →
    exec (.ihdr bd ct) s = .next { s with busy := false, done := true, err := 5 }) ∧
  (∀ (s : State) (w h : Word64), s.width = some w → s.height = some h →
    ¬ (1 ≤ w.toInt ∧ w.toInt ≤ 4294967295 ∧ 1 ≤ h.toInt ∧ h.toInt ≤ 4294967295) →
    exec (.ihdr 8 6) s = .next { s with busy := false, done := true, err := 2 })

/-! ## ENCODE -/

/-- R85, R91: ENCODE completes where the raster is legal, the compressor answers with bytes within the limit and
the file fits; OUT takes signature, IHDR chunk, one IDAT chunk with all of z, and the IEND chunk; nothing else is
written but STATUS. -/
def Obligations.EncodeWritesContainer : Prop :=
  ∀ (s : State) (w h : Word64) (b z : ByteSeq),
    s.width = some w → s.height = some h → s.opa = some b →
    1 ≤ w.toInt → w.toInt ≤ 4294967295 → 1 ≤ h.toInt → h.toInt ≤ 4294967295 →
    (b.length : Int) = w.toInt * h.toInt * 4 →
    compressPort s.cfg.compressor (frame w.toNat h.toNat b) = .ok z → z.length ≤ 2147483647 →
    (∀ c, s.cfg.capOut = some c → 57 + z.length ≤ c) →
    exec .encode s =
      .next { s with
        out := some
          ([0x89, 0x50, 0x4E, 0x47, 0x0D, 0x0A, 0x1A, 0x0A] ++
           chunk [0x49, 0x48, 0x44, 0x52] (ihdrPayload w.toInt h.toInt 8 6) ++
           chunk [0x49, 0x44, 0x41, 0x54] z ++
           [0x00, 0x00, 0x00, 0x00, 0x49, 0x45, 0x4E, 0x44, 0xAE, 0x42, 0x60, 0x82])
        busy := false
        done := true
        err := 0 }

/-- R71: where the compressor fails on the framed raster, ENCODE ends with error 4 and ERRDETAIL takes the report
unchanged. -/
def Obligations.EncodeReportsCompressionFailure : Prop :=
  ∀ (s : State) (w h : Word64) (b : ByteSeq) (d : Detail),
    s.width = some w → s.height = some h → s.opa = some b →
    1 ≤ w.toInt → w.toInt ≤ 4294967295 → 1 ≤ h.toInt → h.toInt ≤ 4294967295 →
    (b.length : Int) = w.toInt * h.toInt * 4 →
    compressPort s.cfg.compressor (frame w.toNat h.toNat b) = .fail d →
    exec .encode s = .next { s with errdetail := some d, busy := false, done := true, err := 4 }

/-- R85, R94 row 6: compressed data longer than 2^31 - 1 bytes is refused. -/
def Obligations.EncodeRefusesLongCompressedData : Prop :=
  ∀ (s : State) (w h : Word64) (b z : ByteSeq),
    s.width = some w → s.height = some h → s.opa = some b →
    1 ≤ w.toInt → w.toInt ≤ 4294967295 → 1 ≤ h.toInt → h.toInt ≤ 4294967295 →
    (b.length : Int) = w.toInt * h.toInt * 4 →
    compressPort s.cfg.compressor (frame w.toNat h.toNat b) = .ok z → 2147483647 < z.length →
    exec .encode s = .refused .chunkDataTooLong

/-- R87, R88: the layout of every file, for every compressor, every capacity and every type of failure report: each
field at its offset, each CRC over the type and data bytes that stand in the file. -/
def Obligations.EncodedFileLayout : Prop :=
  ∀ (δ : Type) (compress : ByteSeq → CompResult δ) (cap : Option Nat) (w h : Int) (b r : ByteSeq),
    encodePng compress cap w h b = .okOut r →
    ∃ z, compress (frame w.toNat h.toNat b) = .ok z ∧
      r.length = 57 + z.length ∧
      slice r 0 8 = [0x89, 0x50, 0x4E, 0x47, 0x0D, 0x0A, 0x1A, 0x0A] ∧
      slice r 8 4 = [0x00, 0x00, 0x00, 0x0D] ∧
      slice r 12 4 = [0x49, 0x48, 0x44, 0x52] ∧
      slice r 16 13 = ihdrPayload w h 8 6 ∧
      slice r 29 4 = u32be (crc32 (slice r 12 17)) ∧
      slice r 33 4 = u32be (BitVec.ofNat 32 z.length) ∧
      slice r 37 4 = [0x49, 0x44, 0x41, 0x54] ∧
      slice r 41 z.length = z ∧
      slice r (41 + z.length) 4 = u32be (crc32 (slice r 37 (4 + z.length))) ∧
      r.drop (45 + z.length) =
        [0x00, 0x00, 0x00, 0x00, 0x49, 0x45, 0x4E, 0x44, 0xAE, 0x42, 0x60, 0x82]

/-- R83: every successful ENCODE output begins with the signature, regardless of input. -/
def Obligations.EveryEncodedFileStartsWithSignature : Prop :=
  ∀ s t : State, exec .encode s = .next t → t.err = 0 →
    ∃ r, t.out = some r ∧ r.take 8 = [0x89, 0x50, 0x4E, 0x47, 0x0D, 0x0A, 0x1A, 0x0A]

/-- R90: under `ZlibSound`, whatever the words of R68 that the spec does not define mean (log entry 19), any conformant
inflater takes the IDAT data of a successful ENCODE to a scanline stream from which taking the filter bytes off gives
back the raster in OPA. -/
def Obligations.EncodeRoundTripUnderZlibSound : Prop :=
  ∀ (fmt : ZlibFormat) (inflate : ByteSeq → Option ByteSeq) (s t : State) (w h : Word64) (b : ByteSeq),
    ZlibSound fmt (compressPort s.cfg.compressor) → fmt.conformant inflate →
    s.width = some w → s.height = some h → s.opa = some b →
    exec .encode s = .next t → t.err = 0 →
    ∃ r x, t.out = some r ∧ inflate (slice r 41 (r.length - 57)) = some x ∧
      x = frame w.toNat h.toNat b ∧ unframe w.toNat h.toNat x = b

/-- R70: what ENCODE does depends on the compressor only through its answer to the framed raster, which is never
empty, and not at all where the dimensions or the length are wrong. -/
def Obligations.CompressIsCalledOnlyOnTheFramedRaster : Prop :=
  ∀ (δ : Type) (f g : ByteSeq → CompResult δ) (cap : Option Nat) (w h : Int) (b : ByteSeq),
    (1 ≤ w → w ≤ 4294967295 → 1 ≤ h → h ≤ 4294967295 → (b.length : Int) = w * h * 4 →
      5 ≤ (frame w.toNat h.toNat b).length → f (frame w.toNat h.toNat b) = g (frame w.toNat h.toNat b)) →
    encodePng f cap w h b = encodePng g cap w h b

/-- R23 (log entry 1): the failure report is passed on unread: renaming every report renames the one that is
reported and changes nothing else. -/
def Obligations.FailureReportPassedThroughUnread : Prop :=
  ∀ (δ ε : Type) (rename : δ → ε) (f : ByteSeq → CompResult δ) (cap : Option Nat) (w h : Int) (b : ByteSeq),
    encodePng (fun x => match f x with | .ok z => .ok z | .fail d => .fail (rename d)) cap w h b =
      match encodePng f cap w h b with
      | .okCrc c => .okCrc c
      | .okOut r => .okOut r
      | .error e => .error e
      | .errorCf d => .errorCf (rename d)
      | .fault r => .fault r
      | .refuse r => .refuse r

/-! ## All commands -/

/-- R50: after the legality check, a command faults with `UnwrittenOperand` exactly when a register it reads holds
no value. -/
def Obligations.UnwrittenOperandFaultsExactly : Prop :=
  ∀ (i : Instr) (s : State), i.wellFormed = true →
    (exec i s = .fault .unwrittenOperand ↔
      (Reg.width ∈ readsOf i ∧ s.width = none) ∨ (Reg.height ∈ readsOf i ∧ s.height = none) ∨
      (Reg.opa ∈ readsOf i ∧ s.opa = none) ∨ (Reg.opb ∈ readsOf i ∧ s.opb = none))

/-- R2, R50: a command's result is a function of the word, the registers it reads and the configuration: two states
that agree on those get the same result, whatever else they hold. -/
def Obligations.CommandsReadOnlyTheirOperands : Prop :=
  ∀ (i : Instr) (s t : State),
    (Reg.width ∈ readsOf i → s.width = t.width) → (Reg.height ∈ readsOf i → s.height = t.height) →
    (Reg.opa ∈ readsOf i → s.opa = t.opa) → (Reg.opb ∈ readsOf i → s.opb = t.opb) →
    s.cfg = t.cfg →
    ∃ r : CmdResult Detail, exec i s = finish s r ∧ exec i t = finish t r

/-- R13, R20, R93: a command that ends changes STATUS and result registers only, and ends with BUSY = 0 and
DONE = 1. -/
def Obligations.CommandsChangeOnlyStatusAndResults : Prop :=
  ∀ (i : Instr) (s t : State), exec i s = .next t →
    t = { s with
      busy := false
      done := true
      err := t.err
      crcout := t.crcout
      out := t.out
      errdetail := t.errdetail }

/-- R93: a command that ends in an error writes STATUS, and ERRDETAIL for `CompressionFailure`, and nothing else. -/
def Obligations.ErrorsWriteOnlyStatusAndReport : Prop :=
  ∀ (i : Instr) (s t : State), exec i s = .next t → t.err ≠ 0 →
    (t.err ≠ 4 → t = { s with busy := false, done := true, err := t.err }) ∧
    (t.err = 4 → i = .encode ∧
      ∃ d, t = { s with busy := false, done := true, err := 4, errdetail := some d })

/-- R92, with the "Errors raised" of R61, R66, R79, R82 and R91: which error codes each command can end with. That the
IHDR constructor with other fields than 8 and 6 ends with 5 is the model's (log entry 14). -/
def Obligations.ErrorCodesPerCommand : Prop :=
  ∀ (i : Instr) (s t : State), exec i s = .next t →
    match i with
    | .crc32 => t.err = 0
    | .frame => t.err = 0 ∨ t.err = 1 ∨ t.err = 2
    | .chunk => t.err = 0 ∨ t.err = 3
    | .ihdr bd ct => if bd = 8 ∧ ct = 6 then t.err = 0 ∨ t.err = 2 else t.err = 5
    | .encode => t.err = 0 ∨ t.err = 1 ∨ t.err = 2 ∨ t.err = 4

/-- R36, R96, R97: the only fault of a command is `UnwrittenOperand` (`BufferIndex` is never reached), and its only
refusals are the two of R97, raised by the commands R97 names. -/
def Obligations.CommandsStopOnlyByNamedReasons : Prop :=
  ∀ (i : Instr) (s : State),
    (∀ r, exec i s = .fault r → r = .unwrittenOperand) ∧
    (∀ r, exec i s = .refused r →
      (r = .chunkDataTooLong ∧ (i = .chunk ∨ i = .encode)) ∨
      (r = .capacityExceeded ∧ (i = .frame ∨ i = .chunk ∨ i = .encode)))

/-! ## The core's step -/

/-- R25, R51: when the core moves while a legal command is pending, the step is `exec` of the decoded command at
that state; a fault or a refusal is recorded, no register is written, and the instance stays PENDING. That `step` records
it and goes on is the model's choice (log entry 6), and so is what becomes of the order of moves: the listed turn is used
up (log entry 8). -/
def Obligations.StepRunsTheDecodedCommand : Prop :=
  ∀ (s : State) (i : Instr), s.busy = true → mover s = .core → decode s.cmd = .ok i →
    match exec i s with
    | .next t => step s = .next { t with sched := { turns := s.sched.turns.tail, coreNext := false } }
    | .fault r => step s =
        .next { s with faults := s.faults ++ [r], sched := { turns := s.sched.turns.tail, coreNext := false } }
    | .refused r => step s =
        .next { s with refusals := s.refusals ++ [r], sched := { turns := s.sched.turns.tail, coreNext := false } }

/-- R52: a pending word other than the five ends in `IllegalCommand`, whatever the operands hold, and writes no
result. That the listed turn is used up is the model's choice (log entry 8). -/
def Obligations.StepEndsIllegalWords : Prop :=
  ∀ s : State, s.busy = true → mover s = .core →
    s.cmd ≠ 0x00000001 → s.cmd ≠ 0x00000002 → s.cmd ≠ 0x00000003 → s.cmd ≠ 0x00060804 → s.cmd ≠ 0x00000005 →
    step s = .next { s with
      busy := false
      done := true
      err := 5
      sched := { turns := s.sched.turns.tail, coreNext := false } }

/-- R25: the core's step is enabled only while BUSY = 1 (what a listed turn of an idle core does is the model's
choice, log entry 8). -/
def Obligations.IdleCoreTurnDoesNothing : Prop :=
  ∀ s : State, s.busy = false → mover s = .core →
    step s = .next { s with sched := { turns := s.sched.turns.tail, coreNext := false } }

/-- R114 (the alternation is the model's choice, log entry 8): with no turn listed, a pending command is the next
move or the one after it, on the word and the operands it was given. -/
def Obligations.PendingCommandIsTakenInTime : Prop :=
  ∀ s : State, s.busy = true → s.sched.turns = [] →
    mover s = .core ∨
    ∃ t, step s = .next t ∧ mover t = .core ∧ t.busy = true ∧ t.cmd = s.cmd ∧ t.width = s.width ∧
      t.height = s.height ∧ t.opa = s.opa ∧ t.opb = s.opb ∧ t.cfg = s.cfg

/-! ## Reset -/

/-- R107: a reset, in either state, gives every register its reset value, discards a pending command and keeps the
recorded faults and refusals. That the platform resets as a listed turn of `step`, which is used up, is the model's
choice (log entry 8). -/
def Obligations.ResetRestoresResetValues : Prop :=
  ∀ s : State,
    platformReset s =
      { s with
        cmd := 0x00000000
        busy := false
        done := false
        err := 0
        width := none
        height := none
        opa := none
        opb := none
        crcout := none
        out := none
        errdetail := none } ∧
    (mover s = .reset →
      step s = .next { platformReset s with sched := { turns := s.sched.turns.tail, coreNext := false } })

/-- R28: after reset CMD and STATUS read 0, every other register holds no value, so that a host's read of it and a
legal command that reads it fault; the recorded faults and refusals are not reset. -/
def Obligations.RegistersAfterReset : Prop :=
  ∀ s t : State, t = platformReset s ∨ t = State.reset →
    hostRead .cmd t = .ok (.word 0x00000000) ∧ hostRead .status t = .ok (.word 0x00000000) ∧
    (∀ r, r ≠ .cmd → r ≠ .status → hostRead r t = .error .readNoValue) ∧
    (∀ i : Instr, i.wellFormed = true → exec i t = .fault .unwrittenOperand) ∧
    (t = platformReset s → t.faults = s.faults ∧ t.refusals = s.refusals)

/-! ## The host port -/

/-- R24: a CMD write in the state IDLE makes the instance PENDING and clears the results; while BUSY = 1 it is a
protocol violation. -/
def Obligations.CmdWriteStartsACommand : Prop :=
  ∀ (s : State) (v : Word32),
    (s.busy = false → hostWrite (.cmd v) s =
      .next { s with
        cmd := v
        busy := true
        done := false
        err := 0
        crcout := none
        out := none
        errdetail := none }) ∧
    (s.busy = true → hostWrite (.cmd v) s = .fault .hostWriteWhileBusy)

/-- R26: the protocol violations and what the model records for each; the access has no other effect. An over-long
buffer write while BUSY = 1 falls under two rows of R26 and is left out here (log entry 9), and a result read while
BUSY = 1 is the row it has its own name in (95_test_vectors.md H8). -/
def Obligations.HostAccessViolations : Prop :=
  ∀ s : State,
    (s.busy = true →
      (∀ v, hostWrite (.cmd v) s = .fault .hostWriteWhileBusy) ∧
      (∀ v, hostWrite (.width v) s = .fault .hostWriteWhileBusy) ∧
      (∀ v, hostWrite (.height v) s = .fault .hostWriteWhileBusy) ∧
      (∀ b, exceeds s.cfg.capA b.length = false → hostWrite (.opa b) s = .fault .hostWriteWhileBusy) ∧
      (∀ b, exceeds s.cfg.capB b.length = false → hostWrite (.opb b) s = .fault .hostWriteWhileBusy) ∧
      hostRead .crcout s = .error .hostReadWhileBusy ∧ hostRead .out s = .error .hostReadWhileBusy ∧
      hostRead .errdetail s = .error .hostReadWhileBusy) ∧
    ((∀ v, hostWrite (.status v) s = .fault .hostWriteReadOnly) ∧
      (∀ v, hostWrite (.crcout v) s = .fault .hostWriteReadOnly) ∧
      (∀ b, hostWrite (.out b) s = .fault .hostWriteReadOnly) ∧
      (∀ d, hostWrite (.errdetail d) s = .fault .hostWriteReadOnly)) ∧
    ((s.width = none → hostRead .width s = .error .readNoValue) ∧
      (s.height = none → hostRead .height s = .error .readNoValue) ∧
      (s.opa = none → hostRead .opa s = .error .readNoValue) ∧
      (s.opb = none → hostRead .opb s = .error .readNoValue)) ∧
    (s.busy = false →
      (s.crcout = none → hostRead .crcout s = .error .readNoValue) ∧
      (s.out = none → hostRead .out s = .error .readNoValue) ∧
      (s.errdetail = none → hostRead .errdetail s = .error .readNoValue) ∧
      (∀ b c, s.cfg.capA = some c → c < b.length → hostWrite (.opa b) s = .refused .capacityExceeded) ∧
      (∀ b c, s.cfg.capB = some c → c < b.length → hostWrite (.opb b) s = .refused .capacityExceeded)) ∧
    ((∀ w r, hostWrite w s = .fault r → hostWriteMove w s = { s with faults := s.faults ++ [r] }) ∧
      (∀ w r, hostWrite w s = .refused r → hostWriteMove w s = { s with refusals := s.refusals ++ [r] }) ∧
      (∀ g f, hostRead g s = .error f → hostReadMove g s = { s with faults := s.faults ++ [f] }))

/-- R18, R19, R37: an allowed operand write sets that register to the value written and changes nothing else. -/
def Obligations.HostOperandWritesSetOneRegister : Prop :=
  ∀ s : State, s.busy = false →
    (∀ v, hostWrite (.width v) s = .next { s with width := some v }) ∧
    (∀ v, hostWrite (.height v) s = .next { s with height := some v }) ∧
    (∀ b, (∀ c, s.cfg.capA = some c → b.length ≤ c) → hostWrite (.opa b) s = .next { s with opa := some b }) ∧
    (∀ b, (∀ c, s.cfg.capB = some c → b.length ≤ c) → hostWrite (.opb b) s = .next { s with opb := some b })

/-- R12, R15: what an allowed read gives; CMD, STATUS and the operands at any time, the results while BUSY = 0. -/
def Obligations.HostReadsGiveTheRegister : Prop :=
  ∀ s : State,
    hostRead .cmd s = .ok (.word s.cmd) ∧ hostRead .status s = .ok (.word (statusWord s)) ∧
    (∀ v, s.width = some v → hostRead .width s = .ok (.dim v)) ∧
    (∀ v, s.height = some v → hostRead .height s = .ok (.dim v)) ∧
    (∀ b, s.opa = some b → hostRead .opa s = .ok (.bytes b)) ∧
    (∀ b, s.opb = some b → hostRead .opb s = .ok (.bytes b)) ∧
    (s.busy = false →
      (∀ v, s.crcout = some v → hostRead .crcout s = .ok (.word v)) ∧
      (∀ b, s.out = some b → hostRead .out s = .ok (.bytes b)) ∧
      (∀ d, s.errdetail = some d → hostRead .errdetail s = .ok (.detail d)))

/-- R16: BUSY, DONE and ERR stand at their bits of STATUS, and the reserved bits read 0. -/
def Obligations.StatusWordLayout : Prop :=
  ∀ s : State,
    (statusWord s).getLsbD 0 = s.busy ∧ (statusWord s).getLsbD 1 = s.done ∧
    (statusWord s).extractLsb' 2 6 = 0 ∧ (statusWord s).extractLsb' 8 8 = s.err ∧
    (statusWord s).extractLsb' 16 16 = 0

/-- R35, R54: a host's `rd` line changes no register of the instance, and the host goes on to its next line. It keeps
the value it read, and after `rd STATUS` it knows BUSY, which `jbusy` tests (the host's own fields, log entries 7 and
10); a read that is a violation is recorded and leaves it nothing (log entry 11); the listed turn is used up (log
entry 8). -/
def Obligations.HostReadsChangeNoRegister : Prop :=
  ∀ (s : State) (r : Reg), mover s = .host → s.host.program[s.host.line]? = some (.rd r) →
    match hostRead r s with
    | .ok v => step s = .next { s with
        host := { s.host with
          line := s.host.line + 1
          sawBusy := if r = .status then s.busy else s.host.sawBusy
          replies := s.host.replies ++ [⟨r, v⟩] }
        sched := { turns := s.sched.turns.tail, coreNext := true } }
    | .error f => step s = .next { s with
        faults := s.faults ++ [f]
        host := { s.host with line := s.host.line + 1 }
        sched := { turns := s.sched.turns.tail, coreNext := true } }

/-- R24, R26, R37, R54: a host's `wr`, `cmd` or `cmd.raw` line makes that write, `cmd` with the legal word of R48, and
the host goes on to its next line. What an allowed write does, and which are violations, is said of `hostWrite` above; a
violation is recorded (log entries 6 and 11); the host's line and the order of moves are the model's own fields (log
entries 7 and 8). -/
def Obligations.HostWriteLinesMakeTheWrite : Prop :=
  (legalWord .crc32 = 0x00000001 ∧ legalWord .frame = 0x00000002 ∧ legalWord .chunk = 0x00000003 ∧
    legalWord .ihdr = 0x00060804 ∧ legalWord .encode = 0x00000005) ∧
  ∀ (s : State) (l : HostLine Detail) (w : RegWrite Detail),
    mover s = .host → s.host.program[s.host.line]? = some l →
    (l = .wr w ∨ (∃ m, l = .cmd m ∧ w = .cmd (legalWord m)) ∨ ∃ v, l = .cmdRaw v ∧ w = .cmd v) →
    match hostWrite w s with
    | .next t => step s = .next { t with
        host := { s.host with line := s.host.line + 1 }
        sched := { turns := s.sched.turns.tail, coreNext := true } }
    | .fault r => step s = .next { s with
        faults := s.faults ++ [r]
        host := { s.host with line := s.host.line + 1 }
        sched := { turns := s.sched.turns.tail, coreNext := true } }
    | .refused r => step s = .next { s with
        refusals := s.refusals ++ [r]
        host := { s.host with line := s.host.line + 1 }
        sched := { turns := s.sched.turns.tail, coreNext := true } }

/-- R54: a `jbusy` line goes to its label if the last STATUS read had BUSY = 1 and to the next line otherwise, and
changes nothing of the instance. That it goes on before any STATUS read, that a label is a line, and that a turn of the
host past its last line passes, are the model's choices (log entries 10 and 8). -/
def Obligations.JumpLinesFollowTheLastStatusRead : Prop :=
  (∀ (s : State) (target : Nat), mover s = .host → s.host.program[s.host.line]? = some (.jbusy target) →
    step s = .next { s with
      host := { s.host with line := if s.host.sawBusy then target else s.host.line + 1 }
      sched := { turns := s.sched.turns.tail, coreNext := true } }) ∧
  ∀ s : State, mover s = .host → s.host.program[s.host.line]? = none →
    step s = .next { s with sched := { turns := s.sched.turns.tail, coreNext := true } }

/-- R55: the expansions of the pseudo-instructions, as the lines of R54 that the host executes. Byte expressions and the
64-bit reading of integers are the model's abstract syntax (log entry 18), and so are jumps to line numbers (log entry
10). -/
def Obligations.PseudoInstructionExpansions : Prop :=
  ∀ (find : Nat → Option Nat) (p : Nat) (m : Mnemonic) (w h : Int) (e d : BytesExpr) (x y : Word64),
    intWord 64 w = some x → intWord 64 h = some y →
    expandStmt find p .wait = some [.rd .status, .jbusy p] ∧
    expandStmt find p (.run m) = some [.cmd m, .rd .status, .jbusy (p + 1)] ∧
    expandStmt find p (.crc e) =
      some [.wr (.opa (bytesOf e)), .cmd .crc32, .rd .status, .jbusy (p + 2), .rd .crcout] ∧
    expandStmt find p (.frame w h e) =
      some [.wr (.width x), .wr (.height y), .wr (.opa (bytesOf e)), .cmd .frame, .rd .status, .jbusy (p + 4),
        .rd .out] ∧
    expandStmt find p (.chunk e d) =
      some [.wr (.opa (bytesOf e)), .wr (.opb (bytesOf d)), .cmd .chunk, .rd .status, .jbusy (p + 3), .rd .out] ∧
    expandStmt find p (.ihdr w h) =
      some [.wr (.width x), .wr (.height y), .cmd .ihdr, .rd .status, .jbusy (p + 3), .rd .out] ∧
    expandStmt find p (.png w h e) =
      some [.wr (.width x), .wr (.height y), .wr (.opa (bytesOf e)), .cmd .encode, .rd .status, .jbusy (p + 4),
        .rd .out]

/-! ## Rules of the whole machine -/

/-- The invariant of `Safety.lean` holds at reset. -/
def Obligations.ResetMeetsInstanceInvariant : Prop := State.reset.Inv

/-- R11's invariant, R16's legal STATUS combinations, results that agree with STATUS (R21 to R23), and buffers
within their capacities (R12): every step keeps them, from every state that meets them. -/
def Obligations.StepKeepsInstanceInvariant : Prop :=
  ∀ s t : State, s.Inv → step s = .next t → t.Inv

/-- R14: IDLE becomes PENDING only by a host write to CMD, PENDING becomes IDLE only by the core's step or a
reset. -/
def Obligations.CommandMachineTransitions : Prop :=
  ∀ s t : State, step s = .next t →
    (s.busy = false → t.busy = true → mover s = .host ∧ ∃ v,
      (s.host.program[s.host.line]? = some (.wr (.cmd v)) ∨ s.host.program[s.host.line]? = some (.cmdRaw v) ∨
        ∃ m, legalWord m = v ∧ s.host.program[s.host.line]? = some (.cmd m)) ∧ t.cmd = v) ∧
    (s.busy = true → t.busy = false → mover s = .core ∨ mover s = .reset)

/-- R20: an operand register keeps its value until the host writes it or a reset; no command consumes, clears or
changes it. -/
def Obligations.OperandsChangeOnlyByWriteOrReset : Prop :=
  ∀ s t : State, step s = .next t → mover s ≠ .reset →
    (t.width ≠ s.width → mover s = .host ∧ s.busy = false ∧
      ∃ v, s.host.program[s.host.line]? = some (.wr (.width v)) ∧ t.width = some v) ∧
    (t.height ≠ s.height → mover s = .host ∧ s.busy = false ∧
      ∃ v, s.host.program[s.host.line]? = some (.wr (.height v)) ∧ t.height = some v) ∧
    (t.opa ≠ s.opa → mover s = .host ∧ s.busy = false ∧
      ∃ b, s.host.program[s.host.line]? = some (.wr (.opa b)) ∧ t.opa = some b) ∧
    (t.opb ≠ s.opb → mover s = .host ∧ s.busy = false ∧
      ∃ b, s.host.program[s.host.line]? = some (.wr (.opb b)) ∧ t.opb = some b)

/-- R42, R112: CMD, STATUS and the result registers of an ended command change only by the host's next write to CMD
or a reset; and the configuration never changes (R108). -/
def Obligations.ResultsLastUntilCmdWriteOrReset : Prop :=
  ∀ s t : State, step s = .next t →
    t.cfg = s.cfg ∧
    (s.busy = false → t.busy = false → mover s ≠ .reset →
      t.cmd = s.cmd ∧ t.done = s.done ∧ t.err = s.err ∧ t.crcout = s.crcout ∧ t.out = s.out ∧
      t.errdetail = s.errdetail)

/-- R96, R98: no step removes a recorded fault or refusal, reset included. -/
def Obligations.RecordedStopsAreNeverRemoved : Prop :=
  ∀ s t : State, step s = .next t → s.faults <+: t.faults ∧ s.refusals <+: t.refusals

/-- R96, R98, R116: an instance with a recorded fault or refusal is not final after any number of steps. -/
def Obligations.StoppedInstanceIsNeverFinal : Prop :=
  ∀ (k : Nat) (s t : State), s.faults ≠ [] ∨ s.refusals ≠ [] → Host.Core.run Sys2Proof.core k s = .next t →
    ¬ t.Final

/-- R104: a step of one instance changes no other, and steps of different instances come to the same in either
order. -/
def Obligations.PlatformInstancesAreIndependent : Prop :=
  ∀ (p : Platform) (j k : Nat), j ≠ k →
    (stepInstance k p).instances[j]? = p.instances[j]? ∧
    (stepInstance k p).instances.length = p.instances.length ∧
    stepInstance j (stepInstance k p) = stepInstance k (stepInstance j p)
end

