-- ==== Sys2Proof/Laws/Crc32.lean ====
section
/-! SUPPORT. The bit steps of the CRC are linear over exclusive or, the ground of R57; the CRC is a fold over the
bytes. -/

namespace Sys2Proof.Machine

/-- One bit step is linear. -/
theorem crcBit_xor (a b : Word32) : crcBit (a ^^^ b) = crcBit a ^^^ crcBit b := by
  have one (c : Word32) : c &&& 1 = BitVec.setWidth 32 (BitVec.ofBool (c.getLsbD 0)) := by
    ext i hi
    rcases i with _ | i <;> simp [BitVec.getElem_one]
  have twice (p u v : Word32) : p ^^^ (u ^^^ (p ^^^ v)) = u ^^^ v := by
    have : p ^^^ (u ^^^ (p ^^^ v)) = (p ^^^ p) ^^^ (u ^^^ v) := by ac_rfl
    rw [this, BitVec.xor_self, BitVec.zero_xor]
  simp only [crcBit, one, BitVec.getLsbD_xor, BitVec.ushiftRight_xor_distrib]
  cases a.getLsbD 0 <;> cases b.getLsbD 0 <;> simp
  · ac_rfl
  · ac_rfl
  · have : a >>> 1 ^^^ crcPoly ^^^ (b >>> 1 ^^^ crcPoly) = crcPoly ^^^ (a >>> 1 ^^^ (crcPoly ^^^ b >>> 1)) := by ac_rfl
    rw [this, twice]

/-- Any number of bit steps is linear (R57). -/
theorem crcBits_xor : ∀ (n : Nat) (a b : Word32), crcBits n (a ^^^ b) = crcBits n a ^^^ crcBits n b
  | 0, _, _ => rfl
  | n + 1, a, b => by rw [crcBits, crcBit_xor, crcBits_xor n]; rfl

/-- The CRC register after a concatenation. -/
theorem crcRegister_append (c : Word32) (p q : ByteSeq) :
    (p ++ q).foldl crcByte c = q.foldl crcByte (p.foldl crcByte c) := List.foldl_append

end Sys2Proof.Machine
end

