-- ==== Sys2Proof/Laws/Operands.lean ====
section
/-! SUPPORT. What the operand forms can give, said once: buffer reads, big-endian words, capacities, operand
reads. -/

namespace Sys2Proof.Machine

variable {δ : Type}

@[simp] theorem length_u32be (v : Word32) : (u32be v).length = 4 := rfl

@[simp] theorem length_tagIhdr : tagIhdr.length = 4 := rfl

@[simp] theorem length_tagIdat : tagIdat.length = 4 := rfl

@[simp] theorem length_tagIend : tagIend.length = 4 := rfl

theorem length_slice {b : ByteSeq} {i n : Nat} (h : i + n ≤ b.length) : (slice b i n).length = n := by
  simp [slice]; omega

/-- A slice of a concatenation that starts in the second part. -/
theorem slice_append_right (x y : ByteSeq) (i n : Nat) : slice (x ++ y) (x.length + i) n = slice y i n := by
  have hx : x.drop (x.length + i) = [] := by simp
  simp [slice, List.drop_append, hx]

/-- A slice of a concatenation that lies in the first part. -/
theorem slice_append_left {x y : ByteSeq} {i n : Nat} (h : i + n ≤ x.length) : slice (x ++ y) i n = slice x i n := by
  simp only [slice]
  rw [List.drop_append_of_le_length (by omega), List.take_append_of_le_length (by simp; omega)]

/-- A `BufRead` in range gives the slice (R36). -/
theorem bufRead_of_le {b : ByteSeq} {i n : Nat} (h : i + n ≤ b.length) :
    bufRead (some b) i n = .ok (slice b i n) := by
  simp [bufRead, h]

/-- What a `BufRead` can answer (R36). -/
theorem bufRead_cases (buf : Option ByteSeq) (i n : Nat) :
    (buf = none ∧ bufRead buf i n = .error .unwrittenOperand) ∨
    (∃ b, buf = some b ∧ i + n ≤ b.length ∧ bufRead buf i n = .ok (slice b i n)) ∨
    (∃ b, buf = some b ∧ b.length < i + n ∧ bufRead buf i n = .error .bufferIndex) := by
  cases buf with
  | none => exact .inl ⟨rfl, rfl⟩
  | some b =>
    by_cases h : i + n ≤ b.length
    · exact .inr (.inl ⟨b, rfl, h, bufRead_of_le h⟩)
    · exact .inr (.inr ⟨b, rfl, by omega, by simp [bufRead, h]⟩)

@[simp] theorem exceeds_none (n : Nat) : exceeds none n = false := rfl

@[simp] theorem exceeds_some (c n : Nat) : exceeds (some c) n = decide (c < n) := rfl

/-- A length is within a capacity when every bound there is allows it. -/
theorem exceeds_eq_false {cap : Option Nat} {n : Nat} : exceeds cap n = false ↔ ∀ c, cap = some c → n ≤ c := by
  cases cap <;> simp

/-- The last check gives the result or the refusal, and nothing else (R94 row 7). -/
theorem withinOut_cases (cap : Option Nat) (r : ByteSeq) :
    (exceeds cap r.length = false ∧ withinOut (δ := δ) cap r = .okOut r) ∨
    (exceeds cap r.length = true ∧ withinOut (δ := δ) cap r = .refuse .capacityExceeded) := by
  cases h : exceeds cap r.length <;> simp [withinOut, h]

/-- Legal dimensions are natural numbers in 1..2^32 - 1. -/
theorem dimsOk_nat {w h : Int} (hd : dimsOk w h = true) :
    ∃ m n : Nat, w = m ∧ h = n ∧ 1 ≤ m ∧ m < 2 ^ 32 ∧ 1 ≤ n ∧ n < 2 ^ 32 := by
  have hmax : (Config.dimMax : Int) = 4294967295 := by decide
  simp only [dimsOk, hmax, Bool.and_eq_true, decide_eq_true_eq] at hd
  exact ⟨w.toNat, h.toNat, by omega, by omega, by omega, by omega, by omega, by omega⟩

/-- Reading the dimensions gives both, or the fault of R50. -/
theorem readDims_cases (s : State.Of δ) (k : Int → Int → CmdResult δ) :
    (∃ w h, s.width = some w ∧ s.height = some h ∧ readDims s k = k w.toInt h.toInt) ∨
    ((s.width = none ∨ s.height = none) ∧ readDims s k = .fault .unwrittenOperand) := by
  unfold readDims
  cases hw : s.width <;> cases hh : s.height <;> simp

/-- Reading a buffer register gives its sequence, or the fault of R50. -/
theorem readBuffer_cases (buf : Option ByteSeq) (k : ByteSeq → CmdResult δ) :
    (∃ b, buf = some b ∧ readBuffer buf k = k b) ∨ (buf = none ∧ readBuffer buf k = .fault .unwrittenOperand) := by
  cases buf <;> simp [readBuffer]

end Sys2Proof.Machine
end

