-- ==== Sys2Proof/Laws/Frame.lean ====
section
/-! SUPPORT. The framer as the core runs it is the function of R62, and every `BufRead` of it is in range (R36). -/

namespace Sys2Proof.Machine

@[simp] theorem frame_zero (w : Nat) (b : ByteSeq) : frame w 0 b = [] := rfl

/-- R62's loop body: one more row at the end. -/
theorem frame_succ (w h : Nat) (b : ByteSeq) :
    frame w (h + 1) b = frame w h b ++ framedRow (slice b (h * w * 4) (w * 4)) := by
  simp [frame, List.range_succ]

/-- While its rows lie in the buffer, the core's framer gives the function's value. -/
theorem frameRows_eq {w : Nat} {b : ByteSeq} : ∀ {h : Nat}, h * w * 4 ≤ b.length →
    frameRows (some b) w h = .ok (frame w h b)
  | 0, _ => rfl
  | y + 1, hle => by
    have hrow : y * w * 4 + w * 4 ≤ b.length := by
      calc y * w * 4 + w * 4 = (y + 1) * w * 4 := by ring
        _ ≤ b.length := hle
    rw [frameRows, frameRows_eq (by omega), bufRead_of_le hrow, frame_succ]

/-- What the shared checks of FRAME and ENCODE answer: an error, or the continuation on the framed raster. -/
theorem framedThen_cases {δ : Type} (w h : Int) (b : ByteSeq) (k : ByteSeq → CmdResult δ) :
    (dimsOk w h = false ∧ framedThen w h b k = .error .invalidDimensions) ∨
    (dimsOk w h = true ∧ (b.length : Int) ≠ w * h * 4 ∧ framedThen w h b k = .error .invalidRaster) ∨
    (dimsOk w h = true ∧ (b.length : Int) = w * h * 4 ∧ framedThen w h b k = k (frame w.toNat h.toNat b)) := by
  cases hd : dimsOk w h with
  | false => simp [framedThen, hd]
  | true =>
    by_cases hl : (b.length : Int) = w * h * 4
    · obtain ⟨m, n, rfl, rfl, -⟩ := dimsOk_nat hd
      have hle : n * m * 4 ≤ b.length := by
        have : b.length = m * n * 4 := by exact_mod_cast hl
        rw [this, Nat.mul_comm n m]
      have hrows : frameRows (some b) ((m : Int).toNat) ((n : Int).toNat) = .ok (frame m n b) := frameRows_eq hle
      right; right
      refine ⟨rfl, hl, ?_⟩
      simp [framedThen, hd, hl, frameRows_eq hle]
    · right; left
      exact ⟨rfl, hl, by simp [framedThen, hd, hl]⟩

end Sys2Proof.Machine
end

