-- ==== Sys2Proof/Laws/State.lean ====
section
/-! SUPPORT. What every named register update does to every field of State, one lemma each, true by unfolding the
record update. -/

namespace Sys2Proof.Machine

section
variable {δ : Type} (s : State.Of δ)

@[simp] theorem setCmd_cmd (v : Word32) : (setCmd v s).cmd = v := rfl
@[simp] theorem setCmd_busy (v : Word32) : (setCmd v s).busy = s.busy := rfl
@[simp] theorem setCmd_done (v : Word32) : (setCmd v s).done = s.done := rfl
@[simp] theorem setCmd_err (v : Word32) : (setCmd v s).err = s.err := rfl
@[simp] theorem setCmd_width (v : Word32) : (setCmd v s).width = s.width := rfl
@[simp] theorem setCmd_height (v : Word32) : (setCmd v s).height = s.height := rfl
@[simp] theorem setCmd_opa (v : Word32) : (setCmd v s).opa = s.opa := rfl
@[simp] theorem setCmd_opb (v : Word32) : (setCmd v s).opb = s.opb := rfl
@[simp] theorem setCmd_crcout (v : Word32) : (setCmd v s).crcout = s.crcout := rfl
@[simp] theorem setCmd_out (v : Word32) : (setCmd v s).out = s.out := rfl
@[simp] theorem setCmd_errdetail (v : Word32) : (setCmd v s).errdetail = s.errdetail := rfl
@[simp] theorem setCmd_faults (v : Word32) : (setCmd v s).faults = s.faults := rfl
@[simp] theorem setCmd_refusals (v : Word32) : (setCmd v s).refusals = s.refusals := rfl
@[simp] theorem setCmd_cfg (v : Word32) : (setCmd v s).cfg = s.cfg := rfl
@[simp] theorem setCmd_host (v : Word32) : (setCmd v s).host = s.host := rfl
@[simp] theorem setCmd_sched (v : Word32) : (setCmd v s).sched = s.sched := rfl

@[simp] theorem setWidthReg_cmd (v : Word64) : (setWidthReg v s).cmd = s.cmd := rfl
@[simp] theorem setWidthReg_busy (v : Word64) : (setWidthReg v s).busy = s.busy := rfl
@[simp] theorem setWidthReg_done (v : Word64) : (setWidthReg v s).done = s.done := rfl
@[simp] theorem setWidthReg_err (v : Word64) : (setWidthReg v s).err = s.err := rfl
@[simp] theorem setWidthReg_width (v : Word64) : (setWidthReg v s).width = some v := rfl
@[simp] theorem setWidthReg_height (v : Word64) : (setWidthReg v s).height = s.height := rfl
@[simp] theorem setWidthReg_opa (v : Word64) : (setWidthReg v s).opa = s.opa := rfl
@[simp] theorem setWidthReg_opb (v : Word64) : (setWidthReg v s).opb = s.opb := rfl
@[simp] theorem setWidthReg_crcout (v : Word64) : (setWidthReg v s).crcout = s.crcout := rfl
@[simp] theorem setWidthReg_out (v : Word64) : (setWidthReg v s).out = s.out := rfl
@[simp] theorem setWidthReg_errdetail (v : Word64) : (setWidthReg v s).errdetail = s.errdetail := rfl
@[simp] theorem setWidthReg_faults (v : Word64) : (setWidthReg v s).faults = s.faults := rfl
@[simp] theorem setWidthReg_refusals (v : Word64) : (setWidthReg v s).refusals = s.refusals := rfl
@[simp] theorem setWidthReg_cfg (v : Word64) : (setWidthReg v s).cfg = s.cfg := rfl
@[simp] theorem setWidthReg_host (v : Word64) : (setWidthReg v s).host = s.host := rfl
@[simp] theorem setWidthReg_sched (v : Word64) : (setWidthReg v s).sched = s.sched := rfl

@[simp] theorem setHeightReg_cmd (v : Word64) : (setHeightReg v s).cmd = s.cmd := rfl
@[simp] theorem setHeightReg_busy (v : Word64) : (setHeightReg v s).busy = s.busy := rfl
@[simp] theorem setHeightReg_done (v : Word64) : (setHeightReg v s).done = s.done := rfl
@[simp] theorem setHeightReg_err (v : Word64) : (setHeightReg v s).err = s.err := rfl
@[simp] theorem setHeightReg_width (v : Word64) : (setHeightReg v s).width = s.width := rfl
@[simp] theorem setHeightReg_height (v : Word64) : (setHeightReg v s).height = some v := rfl
@[simp] theorem setHeightReg_opa (v : Word64) : (setHeightReg v s).opa = s.opa := rfl
@[simp] theorem setHeightReg_opb (v : Word64) : (setHeightReg v s).opb = s.opb := rfl
@[simp] theorem setHeightReg_crcout (v : Word64) : (setHeightReg v s).crcout = s.crcout := rfl
@[simp] theorem setHeightReg_out (v : Word64) : (setHeightReg v s).out = s.out := rfl
@[simp] theorem setHeightReg_errdetail (v : Word64) : (setHeightReg v s).errdetail = s.errdetail := rfl
@[simp] theorem setHeightReg_faults (v : Word64) : (setHeightReg v s).faults = s.faults := rfl
@[simp] theorem setHeightReg_refusals (v : Word64) : (setHeightReg v s).refusals = s.refusals := rfl
@[simp] theorem setHeightReg_cfg (v : Word64) : (setHeightReg v s).cfg = s.cfg := rfl
@[simp] theorem setHeightReg_host (v : Word64) : (setHeightReg v s).host = s.host := rfl
@[simp] theorem setHeightReg_sched (v : Word64) : (setHeightReg v s).sched = s.sched := rfl

@[simp] theorem setOpa_cmd (b : ByteSeq) : (setOpa b s).cmd = s.cmd := rfl
@[simp] theorem setOpa_busy (b : ByteSeq) : (setOpa b s).busy = s.busy := rfl
@[simp] theorem setOpa_done (b : ByteSeq) : (setOpa b s).done = s.done := rfl
@[simp] theorem setOpa_err (b : ByteSeq) : (setOpa b s).err = s.err := rfl
@[simp] theorem setOpa_width (b : ByteSeq) : (setOpa b s).width = s.width := rfl
@[simp] theorem setOpa_height (b : ByteSeq) : (setOpa b s).height = s.height := rfl
@[simp] theorem setOpa_opa (b : ByteSeq) : (setOpa b s).opa = some b := rfl
@[simp] theorem setOpa_opb (b : ByteSeq) : (setOpa b s).opb = s.opb := rfl
@[simp] theorem setOpa_crcout (b : ByteSeq) : (setOpa b s).crcout = s.crcout := rfl
@[simp] theorem setOpa_out (b : ByteSeq) : (setOpa b s).out = s.out := rfl
@[simp] theorem setOpa_errdetail (b : ByteSeq) : (setOpa b s).errdetail = s.errdetail := rfl
@[simp] theorem setOpa_faults (b : ByteSeq) : (setOpa b s).faults = s.faults := rfl
@[simp] theorem setOpa_refusals (b : ByteSeq) : (setOpa b s).refusals = s.refusals := rfl
@[simp] theorem setOpa_cfg (b : ByteSeq) : (setOpa b s).cfg = s.cfg := rfl
@[simp] theorem setOpa_host (b : ByteSeq) : (setOpa b s).host = s.host := rfl
@[simp] theorem setOpa_sched (b : ByteSeq) : (setOpa b s).sched = s.sched := rfl

@[simp] theorem setOpb_cmd (b : ByteSeq) : (setOpb b s).cmd = s.cmd := rfl
@[simp] theorem setOpb_busy (b : ByteSeq) : (setOpb b s).busy = s.busy := rfl
@[simp] theorem setOpb_done (b : ByteSeq) : (setOpb b s).done = s.done := rfl
@[simp] theorem setOpb_err (b : ByteSeq) : (setOpb b s).err = s.err := rfl
@[simp] theorem setOpb_width (b : ByteSeq) : (setOpb b s).width = s.width := rfl
@[simp] theorem setOpb_height (b : ByteSeq) : (setOpb b s).height = s.height := rfl
@[simp] theorem setOpb_opa (b : ByteSeq) : (setOpb b s).opa = s.opa := rfl
@[simp] theorem setOpb_opb (b : ByteSeq) : (setOpb b s).opb = some b := rfl
@[simp] theorem setOpb_crcout (b : ByteSeq) : (setOpb b s).crcout = s.crcout := rfl
@[simp] theorem setOpb_out (b : ByteSeq) : (setOpb b s).out = s.out := rfl
@[simp] theorem setOpb_errdetail (b : ByteSeq) : (setOpb b s).errdetail = s.errdetail := rfl
@[simp] theorem setOpb_faults (b : ByteSeq) : (setOpb b s).faults = s.faults := rfl
@[simp] theorem setOpb_refusals (b : ByteSeq) : (setOpb b s).refusals = s.refusals := rfl
@[simp] theorem setOpb_cfg (b : ByteSeq) : (setOpb b s).cfg = s.cfg := rfl
@[simp] theorem setOpb_host (b : ByteSeq) : (setOpb b s).host = s.host := rfl
@[simp] theorem setOpb_sched (b : ByteSeq) : (setOpb b s).sched = s.sched := rfl

@[simp] theorem setCrcout_cmd (c : Word32) : (setCrcout c s).cmd = s.cmd := rfl
@[simp] theorem setCrcout_busy (c : Word32) : (setCrcout c s).busy = s.busy := rfl
@[simp] theorem setCrcout_done (c : Word32) : (setCrcout c s).done = s.done := rfl
@[simp] theorem setCrcout_err (c : Word32) : (setCrcout c s).err = s.err := rfl
@[simp] theorem setCrcout_width (c : Word32) : (setCrcout c s).width = s.width := rfl
@[simp] theorem setCrcout_height (c : Word32) : (setCrcout c s).height = s.height := rfl
@[simp] theorem setCrcout_opa (c : Word32) : (setCrcout c s).opa = s.opa := rfl
@[simp] theorem setCrcout_opb (c : Word32) : (setCrcout c s).opb = s.opb := rfl
@[simp] theorem setCrcout_crcout (c : Word32) : (setCrcout c s).crcout = some c := rfl
@[simp] theorem setCrcout_out (c : Word32) : (setCrcout c s).out = s.out := rfl
@[simp] theorem setCrcout_errdetail (c : Word32) : (setCrcout c s).errdetail = s.errdetail := rfl
@[simp] theorem setCrcout_faults (c : Word32) : (setCrcout c s).faults = s.faults := rfl
@[simp] theorem setCrcout_refusals (c : Word32) : (setCrcout c s).refusals = s.refusals := rfl
@[simp] theorem setCrcout_cfg (c : Word32) : (setCrcout c s).cfg = s.cfg := rfl
@[simp] theorem setCrcout_host (c : Word32) : (setCrcout c s).host = s.host := rfl
@[simp] theorem setCrcout_sched (c : Word32) : (setCrcout c s).sched = s.sched := rfl

@[simp] theorem setOut_cmd (b : ByteSeq) : (setOut b s).cmd = s.cmd := rfl
@[simp] theorem setOut_busy (b : ByteSeq) : (setOut b s).busy = s.busy := rfl
@[simp] theorem setOut_done (b : ByteSeq) : (setOut b s).done = s.done := rfl
@[simp] theorem setOut_err (b : ByteSeq) : (setOut b s).err = s.err := rfl
@[simp] theorem setOut_width (b : ByteSeq) : (setOut b s).width = s.width := rfl
@[simp] theorem setOut_height (b : ByteSeq) : (setOut b s).height = s.height := rfl
@[simp] theorem setOut_opa (b : ByteSeq) : (setOut b s).opa = s.opa := rfl
@[simp] theorem setOut_opb (b : ByteSeq) : (setOut b s).opb = s.opb := rfl
@[simp] theorem setOut_crcout (b : ByteSeq) : (setOut b s).crcout = s.crcout := rfl
@[simp] theorem setOut_out (b : ByteSeq) : (setOut b s).out = some b := rfl
@[simp] theorem setOut_errdetail (b : ByteSeq) : (setOut b s).errdetail = s.errdetail := rfl
@[simp] theorem setOut_faults (b : ByteSeq) : (setOut b s).faults = s.faults := rfl
@[simp] theorem setOut_refusals (b : ByteSeq) : (setOut b s).refusals = s.refusals := rfl
@[simp] theorem setOut_cfg (b : ByteSeq) : (setOut b s).cfg = s.cfg := rfl
@[simp] theorem setOut_host (b : ByteSeq) : (setOut b s).host = s.host := rfl
@[simp] theorem setOut_sched (b : ByteSeq) : (setOut b s).sched = s.sched := rfl

@[simp] theorem setErrdetail_cmd (d : δ) : (setErrdetail d s).cmd = s.cmd := rfl
@[simp] theorem setErrdetail_busy (d : δ) : (setErrdetail d s).busy = s.busy := rfl
@[simp] theorem setErrdetail_done (d : δ) : (setErrdetail d s).done = s.done := rfl
@[simp] theorem setErrdetail_err (d : δ) : (setErrdetail d s).err = s.err := rfl
@[simp] theorem setErrdetail_width (d : δ) : (setErrdetail d s).width = s.width := rfl
@[simp] theorem setErrdetail_height (d : δ) : (setErrdetail d s).height = s.height := rfl
@[simp] theorem setErrdetail_opa (d : δ) : (setErrdetail d s).opa = s.opa := rfl
@[simp] theorem setErrdetail_opb (d : δ) : (setErrdetail d s).opb = s.opb := rfl
@[simp] theorem setErrdetail_crcout (d : δ) : (setErrdetail d s).crcout = s.crcout := rfl
@[simp] theorem setErrdetail_out (d : δ) : (setErrdetail d s).out = s.out := rfl
@[simp] theorem setErrdetail_errdetail (d : δ) : (setErrdetail d s).errdetail = some d := rfl
@[simp] theorem setErrdetail_faults (d : δ) : (setErrdetail d s).faults = s.faults := rfl
@[simp] theorem setErrdetail_refusals (d : δ) : (setErrdetail d s).refusals = s.refusals := rfl
@[simp] theorem setErrdetail_cfg (d : δ) : (setErrdetail d s).cfg = s.cfg := rfl
@[simp] theorem setErrdetail_host (d : δ) : (setErrdetail d s).host = s.host := rfl
@[simp] theorem setErrdetail_sched (d : δ) : (setErrdetail d s).sched = s.sched := rfl

@[simp] theorem clearResults_cmd : (clearResults s).cmd = s.cmd := rfl
@[simp] theorem clearResults_busy : (clearResults s).busy = s.busy := rfl
@[simp] theorem clearResults_done : (clearResults s).done = s.done := rfl
@[simp] theorem clearResults_err : (clearResults s).err = s.err := rfl
@[simp] theorem clearResults_width : (clearResults s).width = s.width := rfl
@[simp] theorem clearResults_height : (clearResults s).height = s.height := rfl
@[simp] theorem clearResults_opa : (clearResults s).opa = s.opa := rfl
@[simp] theorem clearResults_opb : (clearResults s).opb = s.opb := rfl
@[simp] theorem clearResults_crcout : (clearResults s).crcout = none := rfl
@[simp] theorem clearResults_out : (clearResults s).out = none := rfl
@[simp] theorem clearResults_errdetail : (clearResults s).errdetail = none := rfl
@[simp] theorem clearResults_faults : (clearResults s).faults = s.faults := rfl
@[simp] theorem clearResults_refusals : (clearResults s).refusals = s.refusals := rfl
@[simp] theorem clearResults_cfg : (clearResults s).cfg = s.cfg := rfl
@[simp] theorem clearResults_host : (clearResults s).host = s.host := rfl
@[simp] theorem clearResults_sched : (clearResults s).sched = s.sched := rfl

@[simp] theorem clearOperands_cmd : (clearOperands s).cmd = s.cmd := rfl
@[simp] theorem clearOperands_busy : (clearOperands s).busy = s.busy := rfl
@[simp] theorem clearOperands_done : (clearOperands s).done = s.done := rfl
@[simp] theorem clearOperands_err : (clearOperands s).err = s.err := rfl
@[simp] theorem clearOperands_width : (clearOperands s).width = none := rfl
@[simp] theorem clearOperands_height : (clearOperands s).height = none := rfl
@[simp] theorem clearOperands_opa : (clearOperands s).opa = none := rfl
@[simp] theorem clearOperands_opb : (clearOperands s).opb = none := rfl
@[simp] theorem clearOperands_crcout : (clearOperands s).crcout = s.crcout := rfl
@[simp] theorem clearOperands_out : (clearOperands s).out = s.out := rfl
@[simp] theorem clearOperands_errdetail : (clearOperands s).errdetail = s.errdetail := rfl
@[simp] theorem clearOperands_faults : (clearOperands s).faults = s.faults := rfl
@[simp] theorem clearOperands_refusals : (clearOperands s).refusals = s.refusals := rfl
@[simp] theorem clearOperands_cfg : (clearOperands s).cfg = s.cfg := rfl
@[simp] theorem clearOperands_host : (clearOperands s).host = s.host := rfl
@[simp] theorem clearOperands_sched : (clearOperands s).sched = s.sched := rfl

@[simp] theorem recordFault_cmd (r : Fault) : (recordFault r s).cmd = s.cmd := rfl
@[simp] theorem recordFault_busy (r : Fault) : (recordFault r s).busy = s.busy := rfl
@[simp] theorem recordFault_done (r : Fault) : (recordFault r s).done = s.done := rfl
@[simp] theorem recordFault_err (r : Fault) : (recordFault r s).err = s.err := rfl
@[simp] theorem recordFault_width (r : Fault) : (recordFault r s).width = s.width := rfl
@[simp] theorem recordFault_height (r : Fault) : (recordFault r s).height = s.height := rfl
@[simp] theorem recordFault_opa (r : Fault) : (recordFault r s).opa = s.opa := rfl
@[simp] theorem recordFault_opb (r : Fault) : (recordFault r s).opb = s.opb := rfl
@[simp] theorem recordFault_crcout (r : Fault) : (recordFault r s).crcout = s.crcout := rfl
@[simp] theorem recordFault_out (r : Fault) : (recordFault r s).out = s.out := rfl
@[simp] theorem recordFault_errdetail (r : Fault) : (recordFault r s).errdetail = s.errdetail := rfl
@[simp] theorem recordFault_faults (r : Fault) : (recordFault r s).faults = s.faults ++ [r] := rfl
@[simp] theorem recordFault_refusals (r : Fault) : (recordFault r s).refusals = s.refusals := rfl
@[simp] theorem recordFault_cfg (r : Fault) : (recordFault r s).cfg = s.cfg := rfl
@[simp] theorem recordFault_host (r : Fault) : (recordFault r s).host = s.host := rfl
@[simp] theorem recordFault_sched (r : Fault) : (recordFault r s).sched = s.sched := rfl

@[simp] theorem recordRefusal_cmd (r : Refusal) : (recordRefusal r s).cmd = s.cmd := rfl
@[simp] theorem recordRefusal_busy (r : Refusal) : (recordRefusal r s).busy = s.busy := rfl
@[simp] theorem recordRefusal_done (r : Refusal) : (recordRefusal r s).done = s.done := rfl
@[simp] theorem recordRefusal_err (r : Refusal) : (recordRefusal r s).err = s.err := rfl
@[simp] theorem recordRefusal_width (r : Refusal) : (recordRefusal r s).width = s.width := rfl
@[simp] theorem recordRefusal_height (r : Refusal) : (recordRefusal r s).height = s.height := rfl
@[simp] theorem recordRefusal_opa (r : Refusal) : (recordRefusal r s).opa = s.opa := rfl
@[simp] theorem recordRefusal_opb (r : Refusal) : (recordRefusal r s).opb = s.opb := rfl
@[simp] theorem recordRefusal_crcout (r : Refusal) : (recordRefusal r s).crcout = s.crcout := rfl
@[simp] theorem recordRefusal_out (r : Refusal) : (recordRefusal r s).out = s.out := rfl
@[simp] theorem recordRefusal_errdetail (r : Refusal) : (recordRefusal r s).errdetail = s.errdetail := rfl
@[simp] theorem recordRefusal_faults (r : Refusal) : (recordRefusal r s).faults = s.faults := rfl
@[simp] theorem recordRefusal_refusals (r : Refusal) : (recordRefusal r s).refusals = s.refusals ++ [r] := rfl
@[simp] theorem recordRefusal_cfg (r : Refusal) : (recordRefusal r s).cfg = s.cfg := rfl
@[simp] theorem recordRefusal_host (r : Refusal) : (recordRefusal r s).host = s.host := rfl
@[simp] theorem recordRefusal_sched (r : Refusal) : (recordRefusal r s).sched = s.sched := rfl

@[simp] theorem setHost_cmd (h : HostAgent δ) : (setHost h s).cmd = s.cmd := rfl
@[simp] theorem setHost_busy (h : HostAgent δ) : (setHost h s).busy = s.busy := rfl
@[simp] theorem setHost_done (h : HostAgent δ) : (setHost h s).done = s.done := rfl
@[simp] theorem setHost_err (h : HostAgent δ) : (setHost h s).err = s.err := rfl
@[simp] theorem setHost_width (h : HostAgent δ) : (setHost h s).width = s.width := rfl
@[simp] theorem setHost_height (h : HostAgent δ) : (setHost h s).height = s.height := rfl
@[simp] theorem setHost_opa (h : HostAgent δ) : (setHost h s).opa = s.opa := rfl
@[simp] theorem setHost_opb (h : HostAgent δ) : (setHost h s).opb = s.opb := rfl
@[simp] theorem setHost_crcout (h : HostAgent δ) : (setHost h s).crcout = s.crcout := rfl
@[simp] theorem setHost_out (h : HostAgent δ) : (setHost h s).out = s.out := rfl
@[simp] theorem setHost_errdetail (h : HostAgent δ) : (setHost h s).errdetail = s.errdetail := rfl
@[simp] theorem setHost_faults (h : HostAgent δ) : (setHost h s).faults = s.faults := rfl
@[simp] theorem setHost_refusals (h : HostAgent δ) : (setHost h s).refusals = s.refusals := rfl
@[simp] theorem setHost_cfg (h : HostAgent δ) : (setHost h s).cfg = s.cfg := rfl
@[simp] theorem setHost_host (h : HostAgent δ) : (setHost h s).host = h := rfl
@[simp] theorem setHost_sched (h : HostAgent δ) : (setHost h s).sched = s.sched := rfl

@[simp] theorem setSched_cmd (c : Schedule) : (setSched c s).cmd = s.cmd := rfl
@[simp] theorem setSched_busy (c : Schedule) : (setSched c s).busy = s.busy := rfl
@[simp] theorem setSched_done (c : Schedule) : (setSched c s).done = s.done := rfl
@[simp] theorem setSched_err (c : Schedule) : (setSched c s).err = s.err := rfl
@[simp] theorem setSched_width (c : Schedule) : (setSched c s).width = s.width := rfl
@[simp] theorem setSched_height (c : Schedule) : (setSched c s).height = s.height := rfl
@[simp] theorem setSched_opa (c : Schedule) : (setSched c s).opa = s.opa := rfl
@[simp] theorem setSched_opb (c : Schedule) : (setSched c s).opb = s.opb := rfl
@[simp] theorem setSched_crcout (c : Schedule) : (setSched c s).crcout = s.crcout := rfl
@[simp] theorem setSched_out (c : Schedule) : (setSched c s).out = s.out := rfl
@[simp] theorem setSched_errdetail (c : Schedule) : (setSched c s).errdetail = s.errdetail := rfl
@[simp] theorem setSched_faults (c : Schedule) : (setSched c s).faults = s.faults := rfl
@[simp] theorem setSched_refusals (c : Schedule) : (setSched c s).refusals = s.refusals := rfl
@[simp] theorem setSched_cfg (c : Schedule) : (setSched c s).cfg = s.cfg := rfl
@[simp] theorem setSched_host (c : Schedule) : (setSched c s).host = s.host := rfl
@[simp] theorem setSched_sched (c : Schedule) : (setSched c s).sched = c := rfl

@[simp] theorem flagsStarted_cmd : (flagsStarted s).cmd = s.cmd := rfl
@[simp] theorem flagsStarted_busy : (flagsStarted s).busy = true := rfl
@[simp] theorem flagsStarted_done : (flagsStarted s).done = false := rfl
@[simp] theorem flagsStarted_err : (flagsStarted s).err = 0 := rfl
@[simp] theorem flagsStarted_width : (flagsStarted s).width = s.width := rfl
@[simp] theorem flagsStarted_height : (flagsStarted s).height = s.height := rfl
@[simp] theorem flagsStarted_opa : (flagsStarted s).opa = s.opa := rfl
@[simp] theorem flagsStarted_opb : (flagsStarted s).opb = s.opb := rfl
@[simp] theorem flagsStarted_crcout : (flagsStarted s).crcout = s.crcout := rfl
@[simp] theorem flagsStarted_out : (flagsStarted s).out = s.out := rfl
@[simp] theorem flagsStarted_errdetail : (flagsStarted s).errdetail = s.errdetail := rfl
@[simp] theorem flagsStarted_faults : (flagsStarted s).faults = s.faults := rfl
@[simp] theorem flagsStarted_refusals : (flagsStarted s).refusals = s.refusals := rfl
@[simp] theorem flagsStarted_cfg : (flagsStarted s).cfg = s.cfg := rfl
@[simp] theorem flagsStarted_host : (flagsStarted s).host = s.host := rfl
@[simp] theorem flagsStarted_sched : (flagsStarted s).sched = s.sched := rfl

@[simp] theorem flagsEnded_cmd (e : Byte) : (flagsEnded e s).cmd = s.cmd := rfl
@[simp] theorem flagsEnded_busy (e : Byte) : (flagsEnded e s).busy = false := rfl
@[simp] theorem flagsEnded_done (e : Byte) : (flagsEnded e s).done = true := rfl
@[simp] theorem flagsEnded_err (e : Byte) : (flagsEnded e s).err = e := rfl
@[simp] theorem flagsEnded_width (e : Byte) : (flagsEnded e s).width = s.width := rfl
@[simp] theorem flagsEnded_height (e : Byte) : (flagsEnded e s).height = s.height := rfl
@[simp] theorem flagsEnded_opa (e : Byte) : (flagsEnded e s).opa = s.opa := rfl
@[simp] theorem flagsEnded_opb (e : Byte) : (flagsEnded e s).opb = s.opb := rfl
@[simp] theorem flagsEnded_crcout (e : Byte) : (flagsEnded e s).crcout = s.crcout := rfl
@[simp] theorem flagsEnded_out (e : Byte) : (flagsEnded e s).out = s.out := rfl
@[simp] theorem flagsEnded_errdetail (e : Byte) : (flagsEnded e s).errdetail = s.errdetail := rfl
@[simp] theorem flagsEnded_faults (e : Byte) : (flagsEnded e s).faults = s.faults := rfl
@[simp] theorem flagsEnded_refusals (e : Byte) : (flagsEnded e s).refusals = s.refusals := rfl
@[simp] theorem flagsEnded_cfg (e : Byte) : (flagsEnded e s).cfg = s.cfg := rfl
@[simp] theorem flagsEnded_host (e : Byte) : (flagsEnded e s).host = s.host := rfl
@[simp] theorem flagsEnded_sched (e : Byte) : (flagsEnded e s).sched = s.sched := rfl

@[simp] theorem flagsReset_cmd : (flagsReset s).cmd = s.cmd := rfl
@[simp] theorem flagsReset_busy : (flagsReset s).busy = false := rfl
@[simp] theorem flagsReset_done : (flagsReset s).done = false := rfl
@[simp] theorem flagsReset_err : (flagsReset s).err = 0 := rfl
@[simp] theorem flagsReset_width : (flagsReset s).width = s.width := rfl
@[simp] theorem flagsReset_height : (flagsReset s).height = s.height := rfl
@[simp] theorem flagsReset_opa : (flagsReset s).opa = s.opa := rfl
@[simp] theorem flagsReset_opb : (flagsReset s).opb = s.opb := rfl
@[simp] theorem flagsReset_crcout : (flagsReset s).crcout = s.crcout := rfl
@[simp] theorem flagsReset_out : (flagsReset s).out = s.out := rfl
@[simp] theorem flagsReset_errdetail : (flagsReset s).errdetail = s.errdetail := rfl
@[simp] theorem flagsReset_faults : (flagsReset s).faults = s.faults := rfl
@[simp] theorem flagsReset_refusals : (flagsReset s).refusals = s.refusals := rfl
@[simp] theorem flagsReset_cfg : (flagsReset s).cfg = s.cfg := rfl
@[simp] theorem flagsReset_host : (flagsReset s).host = s.host := rfl
@[simp] theorem flagsReset_sched : (flagsReset s).sched = s.sched := rfl

end

end Sys2Proof.Machine
end

