-- ==== Sys2Proof/Laws/Ops.lean ====
section
/-! SUPPORT. What the shared operations of Machine/Ops.lean can answer, said once. -/

namespace Sys2Proof.Machine

variable {δ : Type}

/-- A command's result that leads to a next state is one of R25's ok and error arms. -/
theorem finish_next {s t : State.Of δ} {r : CmdResult δ} (h : finish s r = .next t) :
    (∃ c, r = .okCrc c ∧ t = setCrcout c (flagsEnded 0 s)) ∨
    (∃ b, r = .okOut b ∧ t = setOut b (flagsEnded 0 s)) ∨
    (∃ e, r = .error e ∧ t = raiseError e s) ∨
    (∃ d, r = .errorCf d ∧ t = raiseCompressionFailure d s) := by
  cases r <;> simp_all [finish]

/-- A fault is handed on by its name and by nothing else. -/
theorem finish_eq_fault {s : State.Of δ} {r : CmdResult δ} {f : Fault} : finish s r = .fault f ↔ r = .fault f := by
  cases r <;> simp [finish]

/-- A refusal is handed on by its name and by nothing else. -/
theorem finish_eq_refused {s : State.Of δ} {r : CmdResult δ} {f : Refusal} :
    finish s r = .refused f ↔ r = .refuse f := by
  cases r <;> simp [finish]

/-- A record is the next state, or the old state with one more fault or refusal. -/
theorem record_cases (s : State.Of δ) (o : Host.Outcome (State.Of δ) Fault Refusal) :
    o = .next (record s o) ∨ (∃ r, o = .fault r ∧ record s o = recordFault r s) ∨
    (∃ r, o = .refused r ∧ record s o = recordRefusal r s) := by
  cases o <;> simp [record]

/-- R24's clearing: a started command shows nothing of a result, and keeps its operands. -/
theorem startCommand_clears (v : Word32) (s : State.Of δ) :
    (startCommand v s).crcout = none ∧ (startCommand v s).out = none ∧ (startCommand v s).errdetail = none ∧
    (startCommand v s).width = s.width ∧ (startCommand v s).height = s.height ∧
    (startCommand v s).opa = s.opa ∧ (startCommand v s).opb = s.opb := by
  simp [startCommand]

/-- An error ends the command with its number in ERR (R92). -/
theorem raiseError_status (e : ErrorCode) (s : State.Of δ) :
    (raiseError e s).busy = false ∧ (raiseError e s).done = true ∧ (raiseError e s).err = errorNumber e := by
  simp [raiseError]

/-- Codes 1 to 5 are the error numbers (R92). -/
theorem errorNumber_range (e : ErrorCode) : 1 ≤ (errorNumber e).toNat ∧ (errorNumber e).toNat ≤ 5 := by
  cases e <;> decide

end Sys2Proof.Machine
end

