-- ==== Sys2Proof/Laws/Commands.lean ====
section
/-! SUPPORT. What each command can answer, said once: its result is one of the listed cases, and `exec` finishes
the state with that result. Later proofs cite these and do not unfold a command. -/

namespace Sys2Proof.Machine

variable {δ : Type}

/-- The result of a command (R51's `Outcome`). -/
def cmdResult (i : Instr) (s : State.Of δ) : CmdResult δ :=
  match i with
  | .crc32 => crc32Cmd s
  | .frame => frameCmd s
  | .chunk => chunkCmd s
  | .ihdr bd ct => ihdrCmd bd ct s
  | .encode => encodeCmd s

/-- Every command finishes the state with its result (R25). -/
theorem exec_eq_finish (i : Instr) (s : State) : exec i s = finish s (cmdResult i s) := by
  cases i <;> rfl

@[simp] theorem length_chunk {t : ByteSeq} (d : ByteSeq) (ht : t.length = 4) : (chunk t d).length = 12 + d.length := by
  simp [chunk, ht]; omega

@[simp] theorem length_ihdrPayload (w h : Int) (bd ct : Byte) : (ihdrPayload w h bd ct).length = 13 := by
  simp [ihdrPayload]

@[simp] theorem length_container (w h : Int) (z : ByteSeq) : (container w h z).length = 57 + z.length := by
  simp only [container, List.length_append, length_chunk _ length_tagIhdr, length_chunk _ length_tagIdat, iendChunk,
    length_chunk _ length_tagIend, length_ihdrPayload, List.length_nil, signature, List.length_cons]
  omega

theorem crc32Cmd_cases (s : State.Of δ) :
    (∃ b, s.opa = some b ∧ crc32Cmd s = .okCrc (crc32 b)) ∨
    (s.opa = none ∧ crc32Cmd s = .fault .unwrittenOperand) :=
  readBuffer_cases s.opa _

/-- The raster commands: the fault of R50, or the shared checks on the operands held. -/
theorem frameCmd_cases (s : State.Of δ) :
    ((s.width = none ∨ s.height = none ∨ s.opa = none) ∧ frameCmd s = .fault .unwrittenOperand) ∨
    ∃ w h b, s.width = some w ∧ s.height = some h ∧ s.opa = some b ∧
      frameCmd s = framedThen w.toInt h.toInt b (withinOut s.cfg.capOut) := by
  unfold frameCmd readDims readBuffer
  cases hw : s.width <;> cases hh : s.height <;> cases ho : s.opa <;> simp

theorem encodeCmd_cases (s : State.Of δ) :
    ((s.width = none ∨ s.height = none ∨ s.opa = none) ∧ encodeCmd s = .fault .unwrittenOperand) ∨
    ∃ w h b, s.width = some w ∧ s.height = some h ∧ s.opa = some b ∧
      encodeCmd s = encodePng (compressPort s.cfg.compressor) s.cfg.capOut w.toInt h.toInt b := by
  unfold encodeCmd readDims readBuffer
  cases hw : s.width <;> cases hh : s.height <;> cases ho : s.opa <;> simp

theorem chunkCmd_cases (s : State.Of δ) :
    ((s.opa = none ∨ s.opb = none) ∧ chunkCmd s = .fault .unwrittenOperand) ∨
    ∃ t d, s.opa = some t ∧ s.opb = some d ∧
      ((t.length ≠ 4 ∧ chunkCmd s = .error .invalidChunkType) ∨
       (t.length = 4 ∧ dataTooLong d = true ∧ chunkCmd s = .refuse .chunkDataTooLong) ∨
       (t.length = 4 ∧ dataTooLong d = false ∧ chunkCmd s = withinOut s.cfg.capOut (chunk t d))) := by
  unfold chunkCmd readBuffer
  cases ha : s.opa <;> cases hb : s.opb <;> simp
  rename_i t d
  by_cases ht : t.length = 4 <;> cases hd : dataTooLong d <;> simp [ht]

theorem ihdrCmd_cases (bd ct : Byte) (s : State.Of δ) :
    ((bd ≠ 8 ∨ ct ≠ 6) ∧ ihdrCmd bd ct s = .error .illegalCommand) ∨
    (bd = 8 ∧ ct = 6 ∧
      (((s.width = none ∨ s.height = none) ∧ ihdrCmd bd ct s = .fault .unwrittenOperand) ∨
       ∃ w h, s.width = some w ∧ s.height = some h ∧
        ((dimsOk w.toInt h.toInt = false ∧ ihdrCmd bd ct s = .error .invalidDimensions) ∨
         (dimsOk w.toInt h.toInt = true ∧ ihdrCmd bd ct s = .okOut (ihdrPayload w.toInt h.toInt 8 6))))) := by
  by_cases hf : bd ≠ 8 ∨ ct ≠ 6
  · exact .inl ⟨hf, if_pos hf⟩
  · obtain ⟨rfl, rfl⟩ : bd = 8 ∧ ct = 6 := by simpa only [ne_eq, not_or, not_not] using hf
    refine .inr ⟨rfl, rfl, ?_⟩
    rw [show ihdrCmd 8 6 s = _ from if_neg hf]
    unfold readDims
    cases hw : s.width <;> cases hh : s.height <;> simp

/-- The file, or what keeps it from being formed (R85). -/
theorem assembleFile_cases (compress : ByteSeq → CompResult δ) (cap : Option Nat) (w h : Int)
    (x : ByteSeq) :
    (∃ d, compress x = .fail d ∧ assembleFile compress cap w h x = .errorCf d) ∨
    (∃ z, compress x = .ok z ∧ dataTooLong z = true ∧
      assembleFile compress cap w h x = .refuse .chunkDataTooLong) ∨
    (∃ z, compress x = .ok z ∧ dataTooLong z = false ∧
      assembleFile compress cap w h x = withinOut cap (container w h z)) := by
  unfold assembleFile
  cases compress x with
  | fail d => exact .inl ⟨d, rfl, rfl⟩
  | ok z => cases hz : dataTooLong z <;> simp [hz]

theorem dataTooLong_eq_false {d : ByteSeq} : dataTooLong d = false ↔ d.length ≤ 2147483647 := by
  have hmax : Config.chunkDataMax = 2147483647 := by decide
  rw [dataTooLong, decide_eq_false_iff_not, hmax, Nat.not_lt]

theorem dataTooLong_eq_true {d : ByteSeq} : dataTooLong d = true ↔ 2147483647 < d.length := by
  have hmax : Config.chunkDataMax = 2147483647 := by decide
  rw [dataTooLong, decide_eq_true_iff, hmax]

/-- Every result a command can have, with R50's, R92's and R97's restrictions: the fault is `UnwrittenOperand`,
the errors are those of the command, an OUT result is within the capacity. -/
theorem cmdResult_cases (i : Instr) (s : State.Of δ) :
    (∃ c, i = .crc32 ∧ cmdResult i s = .okCrc c) ∨
    (∃ b, i ≠ .crc32 ∧ (exceeds s.cfg.capOut b.length = false ∨ b.length = 13) ∧ cmdResult i s = .okOut b) ∨
    (∃ e, i ≠ .crc32 ∧ e ≠ .compressionFailure ∧ cmdResult i s = .error e) ∨
    (∃ d, i = .encode ∧ cmdResult i s = .errorCf d) ∨
    cmdResult i s = .fault .unwrittenOperand ∨
    ((i = .chunk ∨ i = .encode) ∧ cmdResult i s = .refuse .chunkDataTooLong) ∨
    ((i = .frame ∨ i = .chunk ∨ i = .encode) ∧ cmdResult i s = .refuse .capacityExceeded) := by
  have out (r : ByteSeq) : (exceeds s.cfg.capOut r.length = false ∧
      withinOut (δ := δ) s.cfg.capOut r = .okOut r) ∨ withinOut (δ := δ) s.cfg.capOut r =
      .refuse .capacityExceeded := (withinOut_cases s.cfg.capOut r).imp id And.right
  cases i with
  | crc32 => rcases crc32Cmd_cases s with ⟨b, -, h⟩ | ⟨-, h⟩ <;> simp [cmdResult, h]
  | ihdr bd ct =>
    rcases ihdrCmd_cases bd ct s with ⟨-, h⟩ | ⟨-, -, ⟨-, h⟩ | ⟨w, v, -, -, ⟨-, h⟩ | ⟨-, h⟩⟩⟩ <;>
      simp [cmdResult, h]
  | chunk =>
    rcases chunkCmd_cases s with ⟨-, h⟩ | ⟨t, d, -, -, ⟨-, h⟩ | ⟨-, -, h⟩ | ⟨-, -, h⟩⟩
    · simp [cmdResult, h]
    · simp [cmdResult, h]
    · simp [cmdResult, h]
    · rcases out (chunk t d) with ⟨hc, ho⟩ | ho <;> simp [cmdResult, h, ho]
      exact .inl hc
  | frame =>
    rcases frameCmd_cases s with ⟨-, h⟩ | ⟨w, v, b, -, -, -, h⟩
    · simp [cmdResult, h]
    · rcases framedThen_cases w.toInt v.toInt b (withinOut (δ := δ) s.cfg.capOut) with
        ⟨-, hf⟩ | ⟨-, -, hf⟩ | ⟨-, -, hf⟩
      · simp [cmdResult, h, hf]
      · simp [cmdResult, h, hf]
      · rcases out (frame w.toInt.toNat v.toInt.toNat b) with ⟨hc, ho⟩ | ho <;> simp [cmdResult, h, hf, ho]
        exact .inl hc
  | encode =>
    rcases encodeCmd_cases s with ⟨-, h⟩ | ⟨w, v, b, -, -, -, h⟩
    · simp [cmdResult, h]
    · rcases framedThen_cases w.toInt v.toInt b
        (assembleFile (compressPort s.cfg.compressor) s.cfg.capOut w.toInt v.toInt) with
        ⟨-, hf⟩ | ⟨-, -, hf⟩ | ⟨-, -, hf⟩
      · simp [cmdResult, h, encodePng, hf]
      · simp [cmdResult, h, encodePng, hf]
      · rcases assembleFile_cases (compressPort s.cfg.compressor) s.cfg.capOut w.toInt v.toInt
          (frame w.toInt.toNat v.toInt.toNat b) with ⟨d, -, ha⟩ | ⟨z, -, -, ha⟩ | ⟨z, -, -, ha⟩
        · simp [cmdResult, h, encodePng, hf, ha]
        · simp [cmdResult, h, encodePng, hf, ha]
        · rcases out (container w.toInt v.toInt z) with ⟨hc, ho⟩ | ho <;>
            simp [cmdResult, h, encodePng, hf, ha, ho]
          exact .inl (by simpa using hc)

end Sys2Proof.Machine
end

