-- ==== Sys2Proof/Laws/PerInstr.lean ====
section
/-! SUPPORT. Statements for all commands, one lemma per constructor of Instr. -/

namespace Sys2Proof.Laws.EncodingFields

/-- Of every command, legal or not: its word has the opcode of R48 in OP and 0 in RSV; BD and CT are the command's
own, 0 where it has none (R47, R49). -/
def Statement (i : Instr) : Prop :=
  opField (encode i) = opcodeOf i ∧ rsvField (encode i) = 0 ∧
  match i with
  | .crc32 => bdField (encode i) = 0 ∧ ctField (encode i) = 0
  | .frame => bdField (encode i) = 0 ∧ ctField (encode i) = 0
  | .chunk => bdField (encode i) = 0 ∧ ctField (encode i) = 0
  | .ihdr bd ct => bdField (encode i) = bd ∧ ctField (encode i) = ct
  | .encode => bdField (encode i) = 0 ∧ ctField (encode i) = 0

theorem packFields_op (rsv ct bd op : Byte) : opField (packFields rsv ct bd op) = op := by
  ext i hi
  have hlt : i < 8 := hi
  simp [opField, packFields, BitVec.getLsbD_or, BitVec.getLsbD_shiftLeft]
  grind

theorem packFields_bd (rsv ct bd op : Byte) : bdField (packFields rsv ct bd op) = bd := by
  ext i hi
  have hlt : i < 8 := hi
  simp [bdField, packFields, BitVec.getLsbD_or, BitVec.getLsbD_shiftLeft]
  grind

theorem packFields_ct (rsv ct bd op : Byte) : ctField (packFields rsv ct bd op) = ct := by
  ext i hi
  have hlt : i < 8 := hi
  simp [ctField, packFields, BitVec.getLsbD_or, BitVec.getLsbD_shiftLeft]
  grind

theorem packFields_rsv (rsv ct bd op : Byte) : rsvField (packFields rsv ct bd op) = rsv := by
  ext i hi
  have hlt : i < 8 := hi
  simp [rsvField, packFields, BitVec.getLsbD_or, BitVec.getLsbD_shiftLeft]
  grind

theorem crc32 : Statement .crc32 := by
  refine ⟨?_, ?_, ?_, ?_⟩ <;> decide

theorem frame : Statement .frame := by
  refine ⟨?_, ?_, ?_, ?_⟩ <;> decide

theorem chunk : Statement .chunk := by
  refine ⟨?_, ?_, ?_, ?_⟩ <;> decide

theorem ihdr (bd ct : Byte) : Statement (.ihdr bd ct) :=
  ⟨packFields_op _ _ _ _, packFields_rsv _ _ _ _, packFields_bd _ _ _ _, packFields_ct _ _ _ _⟩

theorem encode : Statement .encode := by
  refine ⟨?_, ?_, ?_, ?_⟩ <;> decide

end Sys2Proof.Laws.EncodingFields
end

