-- ==== Sys2Proof/Laws/Turns.lean ====
section
/-! SUPPORT. What a move and a step can do, said once: one case for each thing an agent can do to the instance. -/

namespace Sys2Proof.Machine

variable {δ : Type}

/-- A step answers the state after the mover's move. -/
theorem step_next {s t : State} : step s = .next t ↔ t = takeTurn s := by
  simp [step, eq_comm]

/-- What the core runs for a decoded command is `exec`, at the type of reports the instance names. -/
@[simp] theorem commandOf_eq_exec (i : Instr) (s : State) : commandOf i s = exec i s := by
  cases i <;> rfl

/-- Every command finishes the state with its result (R25), for reports of any type. -/
theorem commandOf_eq_finish (i : Instr) (s : State.Of δ) : commandOf i s = finish s (cmdResult i s) := by
  cases i <;> rfl

/-- The core's move (R25): nothing while IDLE; else the command's end, or a record. -/
theorem coreMove_cases (s : State.Of δ) :
    (s.busy = false ∧ coreMove s = s) ∨
    (s.busy = true ∧ (∃ e, decode s.cmd = .error e) ∧ coreMove s = raiseError .illegalCommand s) ∨
    (s.busy = true ∧ ∃ i, decode s.cmd = .ok i ∧ coreMove s = record s (commandOf i s)) := by
  unfold coreMove coreOutcome
  cases s.busy
  · simp
  · cases decode s.cmd <;> simp [record]

/-- What an allowed host write does, or what is recorded for it (R24, R26, R37). -/
theorem hostWrite_cases (w : RegWrite δ) (s : State.Of δ) :
    (∃ v, w = .cmd v ∧ s.busy = false ∧ hostWrite w s = .next (startCommand v s)) ∨
    (∃ v, w = .width v ∧ s.busy = false ∧ hostWrite w s = .next (setWidthReg v s)) ∨
    (∃ v, w = .height v ∧ s.busy = false ∧ hostWrite w s = .next (setHeightReg v s)) ∨
    (∃ b, w = .opa b ∧ s.busy = false ∧ exceeds s.cfg.capA b.length = false ∧
      hostWrite w s = .next (setOpa b s)) ∨
    (∃ b, w = .opb b ∧ s.busy = false ∧ exceeds s.cfg.capB b.length = false ∧
      hostWrite w s = .next (setOpb b s)) ∨
    (∃ r, hostWrite w s = .fault r) ∨ (∃ r, hostWrite w s = .refused r) := by
  cases w <;> simp only [hostWrite, whenIdle, writeBuffer] <;> (try split) <;> (try split) <;> simp_all

/-- A host read leaves every field but the host's own and the fault list. -/
theorem hostReadMove_cases (r : Reg) (s : State.Of δ) :
    (∃ v h, hostRead r s = .ok v ∧ hostReadMove r s = setHost h s) ∨
    (∃ f, hostRead r s = .error f ∧ hostReadMove r s = recordFault f s) := by
  unfold hostReadMove
  cases hostRead r s with
  | ok v => exact .inl ⟨v, _, rfl, rfl⟩
  | error f => exact .inr ⟨f, rfl, rfl⟩

/-- The value a host line writes and to where, if it writes. -/
def lineWrite : HostLine δ → Option (RegWrite δ)
  | .wr w => some w
  | .rd _ => none
  | .cmd m => some (.cmd (legalWord m))
  | .cmdRaw v => some (.cmd v)
  | .jbusy _ => none

/-- The host's move (R54): its own fields, after a write, a record, or neither. -/
theorem hostMove_cases (s : State.Of δ) :
    (hostMove s = s ∧ s.host.program[s.host.line]? = none) ∨
    ∃ l h, s.host.program[s.host.line]? = some l ∧
      ((∃ w, lineWrite l = some w ∧ hostMove s = setHost h (hostWriteMove w s)) ∨
       (∃ r, l = .rd r ∧ hostMove s = setHost h (hostReadMove r s)) ∨
       (∃ t, l = .jbusy t ∧ hostMove s = setHost h s)) := by
  unfold hostMove
  cases hl : s.host.program[s.host.line]? with
  | none => exact .inl ⟨rfl, rfl⟩
  | some l =>
    refine .inr ⟨l, ?_⟩
    cases l with
    | wr w => exact ⟨_, rfl, .inl ⟨w, rfl, rfl⟩⟩
    | rd r => exact ⟨_, rfl, .inr (.inl ⟨r, rfl, rfl⟩)⟩
    | cmd m => exact ⟨_, rfl, .inl ⟨_, rfl, rfl⟩⟩
    | cmdRaw v => exact ⟨_, rfl, .inl ⟨_, rfl, rfl⟩⟩
    | jbusy t =>
      cases hb : s.host.sawBusy
      · exact ⟨_, rfl, .inr (.inr ⟨t, rfl, by simp [runLine, hb]; rfl⟩)⟩
      · exact ⟨_, rfl, .inr (.inr ⟨t, rfl, by simp [runLine, hb]; rfl⟩)⟩

end Sys2Proof.Machine
end

