-- ==== Sys2Proof/Tests/Slice0.lean ====
section
/-! SUPPORT. The model's own tests. Expected values are those of 95_test_vectors.md (the id or the table is named
beside each) or of the spec's figures; then, for every statement with hypotheses, a witness that meets them. -/

namespace Sys2Proof.Tests

open Sys2Proof Sys2Proof.Machine

/-! ## Small states -/

/-- The instance after a reset and four operand writes. -/
def held (w h : Word64) (a b : ByteSeq) : State :=
  { State.reset with width := some w, height := some h, opa := some a, opb := some b }

/-- The same with CAP_OUT bound. -/
def heldCap (w h : Word64) (a b : ByteSeq) (c : Nat) : State :=
  { held w h a b with cfg := { State.reset.cfg with capOut := some c } }

/-- The same with a compressor that gives one result for every input. -/
def heldWith (r : CompResult Detail) (w h : Word64) (a : ByteSeq) : State :=
  { held w h a [] with cfg := { State.reset.cfg with compressor := { pinned := [], otherwise := some r } } }

/-- The pixel (10, 20, 30, 255) of W3. -/
def pixel : ByteSeq := [0x0A, 0x14, 0x1E, 0xFF]

/-- The scanline stream of the 1 by 1 raster of W3. -/
def pixelStream : ByteSeq := [0x00, 0x0A, 0x14, 0x1E, 0xFF]

/-- STORE of `pixelStream` (E1). -/
def pixelStored : ByteSeq :=
  [0x78, 0x01, 0x01, 0x05, 0x00, 0xFA, 0xFF, 0x00, 0x0A, 0x14, 0x1E, 0xFF, 0x01, 0xA4, 0x01, 0x3C]

/-- The fixture STORE on the one input E1 gives it, a failure for every other. -/
def storePixel : Compressor Detail := { pinned := [(pixelStream, .ok pixelStored)], otherwise := some (.fail "TooLong") }

/-- The state of E1 before the command. -/
def pixelState : State := { held 1 1 pixel [] with cfg := { State.reset.cfg with compressor := storePixel } }

/-- There is a sequence of every length: n zero bytes. The lengths near 2^31 are never computed. -/
theorem zeros (n : Nat) : ∃ b : ByteSeq, b.length = n := ⟨List.replicate n 0, List.length_replicate⟩

/-- The state of E1 with CAP_OUT bound. -/
def pixelCap (c : Nat) : State := { pixelState with cfg := { pixelState.cfg with capOut := some c } }

/-- A pending state whose core moves next. -/
def pendingCore (v : Word32) (s : State) : State :=
  { startCommand v s with sched := { turns := [.core], coreNext := false } }

/-- A state whose host executes one line next. -/
def hostLine (l : HostLine Detail) (s : State) : State :=
  { s with host := { program := [l], line := 0, sawBusy := false, replies := [] } }

/-! ## Well-formedness: each check refuses an ill-formed term -/

theorem test_wellFormed_refuses_depth : (Instr.ihdr 16 6).wellFormed = false := by decide

theorem test_wellFormed_refuses_colour : (Instr.ihdr 8 2).wellFormed = false := by decide

theorem test_wellFormed_accepts : (Instr.ihdr 8 6).wellFormed = true := by decide

/-! ## Decoding: words written out from R47's figure (RSV, CT, BD, OP) and R48's table -/

theorem test_decode_crc32 : decode 0b00000000_00000000_00000000_00000001 = .ok .crc32 := by decide

theorem test_decode_frame : decode 0b00000000_00000000_00000000_00000010 = .ok .frame := by decide

theorem test_decode_chunk : decode 0b00000000_00000000_00000000_00000011 = .ok .chunk := by decide

theorem test_decode_ihdr : decode 0b00000000_00000110_00001000_00000100 = .ok (.ihdr 8 6) := by decide

theorem test_decode_encode : decode 0b00000000_00000000_00000000_00000101 = .ok .encode := by decide

/-- 95_test_vectors.md, "Illegal command words". -/
theorem test_decode_illegal :
    decode 0x00000006 = .error .unknownOpcode ∧ decode 0x80000005 = .error .reservedNotZero ∧
    decode 0x00000801 = .error .fieldsNotZero ∧ decode 0x00060005 = .error .fieldsNotZero ∧
    decode 0x00000004 = .error .depthOrColour := by decide

theorem test_decodeTableWord : decodeTableWord 32 0x00060804 = some (.ihdr 8 6) ∧ decodeTableWord 8 3 = some .chunk ∧
    decodeTableWord 32 0 = none := by decide

/-! ## The commands on the vectors -/

/-- CRC32 vectors: the check string (W of L2). -/
theorem test_crc32_check :
    crc32 [0x31, 0x32, 0x33, 0x34, 0x35, 0x36, 0x37, 0x38, 0x39] = 0xCBF43926 := by decide +kernel

/-- CRC32 vectors: one byte 0x80, and the table's T[128] and T[255]. -/
theorem test_crc32_byte : crc32 [0x80] = 0x3FBA6CAD ∧ crcTable 128 = 0xEDB88320 ∧ crcTable 255 = 0x2D02EF8D := by
  decide +kernel

/-- FRAME vectors: 1 by 2. -/
theorem test_frame_rows :
    frameCmd (held 1 2 [0xAA, 0xAA, 0xAA, 0xAA, 0xBB, 0xBB, 0xBB, 0xBB] []) =
      .okOut [0x00, 0xAA, 0xAA, 0xAA, 0xAA, 0x00, 0xBB, 0xBB, 0xBB, 0xBB] := by decide

/-- FRAME vectors: width 0 with a length that would pass alone; DIM_MAX is legal, 2^32 is not. -/
theorem test_frame_errors :
    frameCmd (held 0 0 [] []) = .error .invalidDimensions ∧
    frameCmd (held 4294967295 1 pixel []) = .error .invalidRaster ∧
    frameCmd (held 4294967296 1 pixel []) = .error .invalidDimensions := by decide

/-- CHUNK vectors: tEXt with one byte of data. -/
theorem test_chunk_text :
    chunkCmd (held 1 1 [0x74, 0x45, 0x58, 0x74] [0x61]) =
      .okOut [0x00, 0x00, 0x00, 0x01, 0x74, 0x45, 0x58, 0x74, 0x61, 0x75, 0xF3, 0x8B, 0x29] := by decide +kernel

/-- CHUNK vectors: a tag of five bytes. -/
theorem test_chunk_tag : chunkCmd (held 1 1 [0x49, 0x44, 0x41, 0x54, 0x58] []) = .error .invalidChunkType := by decide

/-- IHDR vectors: 400 by 300 (W12). -/
theorem test_ihdr_payload :
    ihdrCmd 8 6 (held 400 300 [] []) =
      .okOut [0x00, 0x00, 0x01, 0x90, 0x00, 0x00, 0x01, 0x2C, 0x08, 0x06, 0x00, 0x00, 0x00] := by decide

/-- IHDR vectors: a height of -2^63, and a width of -1. -/
theorem test_ihdr_negative :
    ihdrCmd 8 6 (held 1 (BitVec.ofInt 64 (-9223372036854775808)) [] []) = .error .invalidDimensions ∧
    ihdrCmd 8 6 (held (BitVec.ofInt 64 (-1)) 1 [] []) = .error .invalidDimensions := by decide

/-- ENCODE vector E1: the 73-byte file. -/
theorem test_encode_pixel :
    encodeCmd pixelState = .okOut
      [0x89, 0x50, 0x4E, 0x47, 0x0D, 0x0A, 0x1A, 0x0A, 0x00, 0x00, 0x00, 0x0D, 0x49, 0x48, 0x44, 0x52,
       0x00, 0x00, 0x00, 0x01, 0x00, 0x00, 0x00, 0x01, 0x08, 0x06, 0x00, 0x00, 0x00, 0x1F, 0x15, 0xC4, 0x89,
       0x00, 0x00, 0x00, 0x10, 0x49, 0x44, 0x41, 0x54,
       0x78, 0x01, 0x01, 0x05, 0x00, 0xFA, 0xFF, 0x00, 0x0A, 0x14, 0x1E, 0xFF, 0x01, 0xA4, 0x01, 0x3C,
       0xB4, 0xE4, 0xB8, 0x28, 0x00, 0x00, 0x00, 0x00, 0x49, 0x45, 0x4E, 0x44, 0xAE, 0x42, 0x60, 0x82] := by
  decide +kernel

/-- ENCODE vectors E3 and E8: the failing compressor, and validation before it. -/
theorem test_encode_failures :
    encodeCmd (heldWith (.fail "E") 1 1 pixel) = .errorCf "E" ∧
    encodeCmd (heldWith (.fail "E") 1 0 []) = .error .invalidDimensions := by decide

/-! ## The host port, the flags and the step -/

/-- STATUS words 0x00000002, 0x00000102 and 0x00000001 (95_test_vectors.md, head). -/
theorem test_statusWord :
    statusWord (flagsEnded 0 State.reset) = 0x00000002 ∧ statusWord (flagsEnded 1 State.reset) = 0x00000102 ∧
    statusWord (flagsStarted State.reset) = 0x00000001 := by decide

/-- Access vectors H5, H8 and H9. -/
theorem test_hostRead_faults :
    hostRead .opa State.reset = .error .readNoValue ∧
    hostRead .out (startCommand 5 State.reset) = .error .hostReadWhileBusy ∧
    hostRead .out (flagsEnded 1 State.reset) = .error .readNoValue := by decide

/-- Priority vector Q2: the fault is recorded and the instance stays pending. -/
theorem test_step_records_fault :
    (takeTurn (pendingCore 5 State.reset)).faults = [.unwrittenOperand] ∧
    (takeTurn (pendingCore 5 State.reset)).busy = true := by decide

/-- Priority vector Q1: an illegal word ends in error 5 with nothing written. -/
theorem test_step_illegal : statusWord (takeTurn (pendingCore 6 State.reset)) = 0x00000502 := by decide

/-- The instruction placed by `withFetchWord` runs as the first step after reset. -/
theorem test_withFetchWord_frame :
    (takeTurn (State.reset.withFetchWord 32 2)).out = some [0, 0, 0, 0, 0] ∧
    (takeTurn (State.reset.withFetchWord 32 2)).faults = [] := by decide

/-- R55: `crc` of a one-byte sequence, assembled from line 0. -/
theorem test_assemble_crc :
    assemble [⟨none, some (.crc (.rep 0x00 1))⟩] =
      some [.wr (.opa [0x00]), .cmd .crc32, .rd .status, .jbusy 2, .rd .crcout] := by decide

/-! ## Witnesses: states and operands that meet the hypotheses of each statement -/

/-- The hypotheses on a legal raster that the raster statements share (R66, R85 step 1). -/
abbrev LegalRaster (s : State) (w h : Word64) (b : ByteSeq) : Prop :=
  s.width = some w ∧ s.height = some h ∧ s.opa = some b ∧ 1 ≤ w.toInt ∧ w.toInt ≤ 4294967295 ∧ 1 ≤ h.toInt ∧
  h.toInt ≤ 4294967295 ∧ (b.length : Int) = w.toInt * h.toInt * 4

/-- Dimensions out of range (R80). -/
abbrev BadDims (w h : Word64) : Prop :=
  ¬ (1 ≤ w.toInt ∧ w.toInt ≤ 4294967295 ∧ 1 ≤ h.toInt ∧ h.toInt ≤ 4294967295)

theorem witness_Crc32WritesCrcOfOpa : (held 1 1 pixel []).opa = some pixel := by decide

theorem witness_Crc32OfEmptyIsZero : (held 1 1 [] []).opa = some [] := by decide

theorem witness_Crc32DetectsOneByteChange : (0x00 : Byte) ≠ 0x80 := by decide

/-- The smallest raster, at a capacity just enough. -/
theorem witness_FrameWritesScanlineStream :
    LegalRaster (heldCap 1 1 pixel [] 5) 1 1 pixel ∧
    ∀ c, (heldCap 1 1 pixel [] 5).cfg.capOut = some c → (1 : Word64).toNat * (1 + (1 : Word64).toNat * 4) ≤ c := by
  refine ⟨by decide, ?_⟩
  intro c hc
  simp only [heldCap, Option.some.injEq] at hc
  subst hc; decide

/-- The largest width is within the hypotheses too. -/
theorem witness_FrameWritesScanlineStream_widest :
    ∃ b : ByteSeq, LegalRaster (held 4294967295 1 b []) 4294967295 1 b := by
  obtain ⟨b, hb⟩ := zeros 17179869180
  exact ⟨b, rfl, rfl, rfl, by decide, by decide, by decide, by decide, by rw [hb]; decide⟩

theorem witness_FramedStreamBytes : 1 ≤ 1 ∧ pixel.length = 1 * 1 * 4 ∧ 0 < 1 ∧ 3 < 1 * 4 := by decide

theorem witness_UnframingGivesBackTheRaster : 1 ≤ 2 ∧ (pixel ++ pixel).length = 2 * 1 * 4 := by decide

/-- Both commands; a wrong length at legal dimensions at both ends of the range, and dimensions out of range: zero,
2^32 and negative. -/
theorem witness_RasterErrorsInOrder :
    ((Instr.frame = .frame ∨ Instr.frame = .encode) ∧ (Instr.encode = .frame ∨ Instr.encode = .encode)) ∧
    ((held 1 4294967295 pixel []).width = some 1 ∧ (held 1 4294967295 pixel []).height = some 4294967295 ∧
      (held 1 4294967295 pixel []).opa = some pixel ∧ ¬ BadDims 1 4294967295 ∧
      (pixel.length : Int) ≠ (1 : Word64).toInt * (4294967295 : Word64).toInt * 4) ∧
    ((held 0 1 pixel []).width = some 0 ∧ (held 0 1 pixel []).height = some 1 ∧
      (held 0 1 pixel []).opa = some pixel ∧ BadDims 0 1) ∧
    BadDims 4294967296 1 ∧ BadDims 1 (BitVec.ofInt 64 (-1)) := by decide

theorem witness_ChunkWritesSerializedChunk :
    (heldCap 1 1 tagIend [] 12).opa = some tagIend ∧ (heldCap 1 1 tagIend [] 12).opb = some [] ∧
    tagIend.length = 4 ∧ ([] : ByteSeq).length ≤ 2147483647 ∧
    ∀ c, (heldCap 1 1 tagIend [] 12).cfg.capOut = some c → 12 + ([] : ByteSeq).length ≤ c := by
  refine ⟨by decide, by decide, by decide, by decide, ?_⟩
  intro c hc
  simp only [heldCap, Option.some.injEq] at hc
  subst hc; decide

/-- Data of the largest length is within the hypotheses of the chunk statements. -/
theorem witness_ChunkBytesLayout :
    tagIdat.length = 4 ∧ ∃ d : ByteSeq, d.length = 2147483647 ∧ d.length ≤ 2147483647 := by
  obtain ⟨d, hd⟩ := zeros 2147483647
  exact ⟨rfl, d, hd, by rw [hd]⟩

/-- A tag one byte short, and one byte over. -/
theorem witness_ChunkTagLengthIsChecked :
    ((held 1 1 [0x49, 0x44, 0x41] []).opa = some [0x49, 0x44, 0x41] ∧ (held 1 1 [0x49, 0x44, 0x41] []).opb = some [] ∧
      ([0x49, 0x44, 0x41] : ByteSeq).length ≠ 4) ∧
    ((held 1 1 pixelStream []).opa = some pixelStream ∧ (held 1 1 pixelStream []).opb = some [] ∧
      pixelStream.length ≠ 4) := by decide

theorem witness_ChunkRefusesLongData :
    ∃ d : ByteSeq, (held 1 1 tagIdat d).opa = some tagIdat ∧ (held 1 1 tagIdat d).opb = some d ∧
      tagIdat.length = 4 ∧ 2147483647 < d.length := by
  obtain ⟨d, hd⟩ := zeros 2147483648
  exact ⟨d, rfl, rfl, rfl, by rw [hd]; decide⟩

/-- FRAME, CHUNK and ENCODE with a result one byte over the capacity. -/
theorem witness_ResultsOverCapacityAreRefused :
    (LegalRaster (heldCap 1 1 pixel [] 4) 1 1 pixel ∧ (heldCap 1 1 pixel [] 4).cfg.capOut = some 4 ∧
      4 < (1 : Word64).toNat * (1 + (1 : Word64).toNat * 4)) ∧
    ((heldCap 1 1 tagIend [] 11).opa = some tagIend ∧ (heldCap 1 1 tagIend [] 11).opb = some [] ∧
      tagIend.length = 4 ∧ ([] : ByteSeq).length ≤ 2147483647 ∧ (heldCap 1 1 tagIend [] 11).cfg.capOut = some 11 ∧
      11 < 12 + ([] : ByteSeq).length) ∧
    (LegalRaster (pixelCap 72) 1 1 pixel ∧
      compressPort (pixelCap 72).cfg.compressor (frame (1 : Word64).toNat (1 : Word64).toNat pixel) =
        .ok pixelStored ∧
      pixelStored.length ≤ 2147483647 ∧ (pixelCap 72).cfg.capOut = some 72 ∧ 72 < 57 + pixelStored.length) := by
  decide

theorem witness_IhdrWritesPayload :
    (held 1 4294967295 [] []).width = some 1 ∧ (held 1 4294967295 [] []).height = some 4294967295 ∧
    1 ≤ (1 : Word64).toInt ∧ (1 : Word64).toInt ≤ 4294967295 ∧ 1 ≤ (4294967295 : Word64).toInt ∧
    (4294967295 : Word64).toInt ≤ 4294967295 := by decide

/-- The first clause by either field, the second at zero and at 2^32. -/
theorem witness_IhdrErrorsInOrder :
    ((16 : Byte) ≠ 8 ∨ (6 : Byte) ≠ 6) ∧ ((8 : Byte) ≠ 8 ∨ (2 : Byte) ≠ 6) ∧
    ((held 0 1 [] []).width = some 0 ∧ (held 0 1 [] []).height = some 1 ∧ BadDims 0 1) ∧
    ((held 1 4294967296 [] []).width = some 1 ∧ (held 1 4294967296 [] []).height = some 4294967296 ∧
      BadDims 1 4294967296) := by decide

/-- E1, at a capacity just enough. -/
theorem witness_EncodeWritesContainer :
    LegalRaster (pixelCap 73) 1 1 pixel ∧
    compressPort (pixelCap 73).cfg.compressor (frame (1 : Word64).toNat (1 : Word64).toNat pixel) = .ok pixelStored ∧
    pixelStored.length ≤ 2147483647 ∧ ∀ c, (pixelCap 73).cfg.capOut = some c → 57 + pixelStored.length ≤ c := by
  refine ⟨by decide, by decide, by decide, ?_⟩
  intro c hc
  simp only [pixelCap, Option.some.injEq] at hc
  subst hc; decide

theorem witness_EncodeReportsCompressionFailure :
    LegalRaster (heldWith (.fail "E") 1 1 pixel) 1 1 pixel ∧
    compressPort (heldWith (.fail "E") 1 1 pixel).cfg.compressor
      (frame (1 : Word64).toNat (1 : Word64).toNat pixel) = .fail "E" := by decide

theorem witness_EncodeRefusesLongCompressedData :
    ∃ z : ByteSeq, LegalRaster (heldWith (.ok z) 1 1 pixel) 1 1 pixel ∧
      compressPort (heldWith (.ok z) 1 1 pixel).cfg.compressor
        (frame (1 : Word64).toNat (1 : Word64).toNat pixel) = .ok z ∧ 2147483647 < z.length := by
  obtain ⟨z, hz⟩ := zeros 2147483648
  refine ⟨z, ⟨rfl, rfl, rfl, ?_⟩, rfl, by rw [hz]; decide⟩
  decide

/-- E10: an empty z gives a file of 57 bytes. -/
theorem witness_EncodedFileLayout :
    ∃ r, encodePng (δ := String) (fun _ => .ok []) none 1 1 pixel = .okOut r ∧ r.length = 57 :=
  ⟨container 1 1 [], by decide +kernel, by decide +kernel⟩

/-- E1 ends in a next state without an error. -/
theorem witness_EveryEncodedFileStartsWithSignature : ∃ t, exec .encode pixelState = .next t ∧ t.err = 0 := by
  have h : cmdResult .encode pixelState = .okOut (container 1 1 pixelStored) := by decide +kernel
  exact ⟨_, by rw [exec_eq_finish, h]; rfl, rfl⟩

/-- A reading of R68's notions under which STORE of the one pixel is sound. -/
def pixelFormat : ZlibFormat where
  header := fun b => b = [0x78, 0x01]
  deflateBlocks := fun b => b = [0x01, 0x05, 0x00, 0xFA, 0xFF] ++ pixelStream
  adler32 := fun _ _ b => b = [0x01, 0xA4, 0x01, 0x3C]
  conformant := fun inflate => inflate pixelStored = some pixelStream

/-- That reading and a conformant inflater, with E1. -/
theorem witness_EncodeRoundTripUnderZlibSound :
    ZlibSound pixelFormat (compressPort pixelState.cfg.compressor) ∧
    pixelFormat.conformant (fun z => if z = pixelStored then some pixelStream else none) ∧
    pixelState.width = some 1 ∧ pixelState.height = some 1 ∧ pixelState.opa = some pixel ∧
    ∃ t, exec .encode pixelState = .next t ∧ t.err = 0 := by
  refine ⟨?_, if_pos rfl, rfl, rfl, rfl, witness_EveryEncodedFileStartsWithSignature⟩
  intro x z h
  by_cases hx : x = pixelStream
  · subst hx
    have hz : compressPort pixelState.cfg.compressor pixelStream = .ok pixelStored := by decide
    rw [hz] at h
    injection h with h
    subst h
    exact ⟨⟨[0x78, 0x01], [0x01, 0x05, 0x00, 0xFA, 0xFF] ++ pixelStream, [0x01, 0xA4, 0x01, 0x3C], by decide, rfl, rfl,
      rfl, rfl, rfl⟩, fun _ hc => hc⟩
  · have hb : (x == pixelStream) = false := by simpa using hx
    simp [compressPort, pixelState, storePixel, List.lookup, hb] at h

/-- R91, corner cases: a compressor that returns an empty z is not `ZlibSound`, whatever R68's notions mean. -/
theorem test_empty_z_is_not_zlibSound (fmt : ZlibFormat) : ¬ ZlibSound (δ := Detail) fmt (fun _ => .ok []) := by
  intro h
  obtain ⟨hdr, blocks, sum, hz, hl, -⟩ := (h [] [] rfl).1
  have := congrArg List.length hz
  simp [hl] at this
  omega

/-- Two compressors that differ, and agree on the framed raster. -/
theorem witness_CompressIsCalledOnlyOnTheFramedRaster :
    compressPort storePixel (frame 1 1 pixel) =
      compressPort { pinned := [], otherwise := some (.ok pixelStored) } (frame 1 1 pixel) ∧
    compressPort storePixel [] ≠ compressPort { pinned := [], otherwise := some (.ok pixelStored) } [] := by decide

theorem witness_UnwrittenOperandFaultsExactly :
    Instr.crc32.wellFormed = true ∧ Instr.frame.wellFormed = true ∧ Instr.chunk.wellFormed = true ∧
    (Instr.ihdr 8 6).wellFormed = true ∧ Instr.encode.wellFormed = true := by decide

/-- Two states that agree on what IHDR reads and differ in OPA. -/
theorem witness_CommandsReadOnlyTheirOperands :
    (held 1 1 pixel []).width = (held 1 1 [] []).width ∧ (held 1 1 pixel []).height = (held 1 1 [] []).height ∧
    Reg.opa ∉ readsOf (.ihdr 8 6) ∧ Reg.opb ∉ readsOf (.ihdr 8 6) ∧
    (held 1 1 pixel []).cfg = (held 1 1 [] []).cfg ∧ (held 1 1 pixel []).opa ≠ (held 1 1 [] []).opa := by decide

/-- Each command, and IHDR with an illegal field, has an operand on which `exec` answers a next state. -/
theorem witness_ErrorCodesPerCommand :
    (∃ t, exec .crc32 (held 1 1 [] []) = .next t) ∧ (∃ t, exec .frame (held 0 1 [] []) = .next t) ∧
    (∃ t, exec .chunk (held 1 1 [] []) = .next t) ∧ (∃ t, exec (.ihdr 8 6) (held 1 1 [] []) = .next t) ∧
    (∃ t, exec (.ihdr 16 6) State.reset = .next t) ∧ (∃ t, exec .encode (held 0 1 [] []) = .next t) :=
  ⟨⟨_, rfl⟩, ⟨_, rfl⟩, ⟨_, rfl⟩, ⟨_, rfl⟩, ⟨_, rfl⟩, ⟨_, rfl⟩⟩

theorem witness_CommandsChangeOnlyStatusAndResults :
    exec (.ihdr 8 6) (held 1 1 [] []) = .next (setOut (ihdrPayload 1 1 8 6) (flagsEnded 0 (held 1 1 [] []))) := rfl

/-- An error other than 4, and error 4. -/
theorem witness_ErrorsWriteOnlyStatusAndReport :
    (∃ t, exec .frame (held 0 1 [] []) = .next t ∧ t.err ≠ 0 ∧ t.err ≠ 4) ∧
    (∃ t, exec .encode (heldWith (.fail "E") 1 1 pixel) = .next t ∧ t.err = 4) :=
  ⟨⟨_, rfl, by decide⟩, ⟨_, rfl, by decide⟩⟩

/-- The fault, and each refusal. -/
theorem witness_CommandsStopOnlyByNamedReasons :
    exec .crc32 State.reset = .fault .unwrittenOperand ∧
    exec .chunk (heldCap 1 1 tagIend [] 11) = .refused .capacityExceeded ∧
    ∃ d, exec .chunk (held 1 1 tagIdat d) = .refused .chunkDataTooLong := by
  refine ⟨rfl, ?_, ?_⟩
  · rw [exec_eq_finish, finish_eq_refused]; decide +kernel
  · obtain ⟨d, hd⟩ := zeros 2147483648
    refine ⟨d, ?_⟩
    rw [exec_eq_finish, finish_eq_refused]
    have hl : dataTooLong d = true := dataTooLong_eq_true.2 (by rw [hd]; decide)
    simp [cmdResult, chunkCmd, readBuffer, held, hl]

/-- A pending command that ends, one that faults, one that is refused. -/
theorem witness_StepRunsTheDecodedCommand :
    ((pendingCore 1 (held 1 1 [] [])).busy = true ∧ mover (pendingCore 1 (held 1 1 [] [])) = .core ∧
      decode (pendingCore 1 (held 1 1 [] [])).cmd = .ok .crc32) ∧
    (∃ t, exec .crc32 (pendingCore 1 (held 1 1 [] [])) = .next t) ∧
    exec .crc32 (pendingCore 1 State.reset) = .fault .unwrittenOperand ∧
    exec .chunk (pendingCore 3 (heldCap 1 1 tagIend [] 11)) = .refused .capacityExceeded := by
  refine ⟨by decide, ⟨_, rfl⟩, rfl, ?_⟩
  rw [exec_eq_finish, finish_eq_refused]; decide +kernel

theorem witness_StepEndsIllegalWords :
    (pendingCore 6 State.reset).busy = true ∧ mover (pendingCore 6 State.reset) = .core ∧
    (pendingCore 6 State.reset).cmd = 6 := by decide

theorem witness_IdleCoreTurnDoesNothing :
    (setSched { turns := [.core], coreNext := false } State.reset).busy = false ∧
    mover (setSched { turns := [.core], coreNext := false } State.reset) = .core := by decide

/-- The core next, and the host next. -/
theorem witness_PendingCommandIsTakenInTime :
    (startCommand 1 State.reset).busy = true ∧ (startCommand 1 State.reset).sched.turns = [] ∧
    mover (startCommand 1 State.reset) = .host ∧
    mover (setSched { turns := [], coreNext := true } (startCommand 1 State.reset)) = .core := by decide

theorem witness_ResetRestoresResetValues :
    mover (setSched { turns := [.reset], coreNext := false } (startCommand 1 State.reset)) = .reset := by decide

theorem witness_RegistersAfterReset :
    platformReset (held 1 1 pixel []) = platformReset (held 1 1 pixel []) ∧ State.reset = State.reset :=
  ⟨rfl, rfl⟩

theorem witness_CmdWriteStartsACommand :
    State.reset.busy = false ∧ (startCommand 1 State.reset).busy = true := by decide

/-- Each clause of R26's table: pending, idle without values, a capacity of 4 and five bytes, and a fault and a
refusal of a write and a fault of a read. -/
theorem witness_HostAccessViolations :
    (startCommand 1 State.reset).busy = true ∧ exceeds (startCommand 1 State.reset).cfg.capA 0 = false ∧
    State.reset.busy = false ∧ State.reset.width = none ∧ State.reset.opa = none ∧ State.reset.out = none ∧
    (∃ c, ({ State.reset.cfg with capA := some 4 } : Binding Detail).capA = some c ∧ c < 5) ∧
    hostWrite (.status 0) State.reset = .fault .hostWriteReadOnly ∧
    hostWrite (.opa [0, 0, 0, 0, 0]) { State.reset with cfg := { State.reset.cfg with capA := some 4 } } =
      .refused .capacityExceeded ∧
    hostRead .opa State.reset = .error .readNoValue :=
  ⟨by decide, by decide, by decide, by decide, by decide, by decide, ⟨4, by decide, by decide⟩, rfl, rfl, rfl⟩

theorem witness_HostOperandWritesSetOneRegister :
    State.reset.busy = false ∧ State.reset.cfg.capA = none ∧ State.reset.cfg.capB = none := by decide

theorem witness_HostReadsGiveTheRegister :
    (held 1 2 pixel []).width = some 1 ∧ (held 1 2 pixel []).height = some 2 ∧ (held 1 2 pixel []).opa = some pixel ∧
    (held 1 2 pixel []).opb = some [] ∧ (setCrcout 7 State.reset).busy = false ∧
    (setCrcout 7 State.reset).crcout = some 7 ∧ (setOut pixel State.reset).out = some pixel ∧
    (setErrdetail "E" State.reset).errdetail = some "E" := by decide

/-- A read that gives a value, and one that is a violation. -/
theorem witness_HostReadsChangeNoRegister :
    mover (hostLine (.rd .status) State.reset) = .host ∧
    (hostLine (.rd .status) State.reset).host.program[(hostLine (.rd .status) State.reset).host.line]? =
      some (.rd .status) ∧
    hostRead .status (hostLine (.rd .status) State.reset) = .ok (.word 0) ∧
    hostRead .out (hostLine (.rd .out) State.reset) = .error .readNoValue := by decide

/-- Each form of a write line, with a write that is allowed, one that faults and one that is refused. -/
theorem witness_HostWriteLinesMakeTheWrite :
    (mover (hostLine (.wr (.opa pixel)) State.reset) = .host ∧
      (hostLine (.wr (.opa pixel)) State.reset).host.program[(hostLine (.wr (.opa pixel)) State.reset).host.line]? =
        some (.wr (.opa pixel))) ∧
    (mover (hostLine (.cmd .ihdr) State.reset) = .host ∧
      (hostLine (.cmd .ihdr) State.reset).host.program[(hostLine (.cmd .ihdr) State.reset).host.line]? =
        some (.cmd .ihdr)) ∧
    (mover (hostLine (.cmdRaw 0) State.reset) = .host ∧
      (hostLine (.cmdRaw 0) State.reset).host.program[(hostLine (.cmdRaw 0) State.reset).host.line]? =
        some (.cmdRaw 0)) ∧
    hostWrite (.opa pixel) (hostLine (.wr (.opa pixel)) State.reset) =
      .next (setOpa pixel (hostLine (.wr (.opa pixel)) State.reset)) ∧
    hostWrite (.status 0) (hostLine (.wr (.status 0)) State.reset) = .fault .hostWriteReadOnly ∧
    hostWrite (.opa [0, 0, 0, 0, 0]) { State.reset with cfg := { State.reset.cfg with capA := some 4 } } =
      .refused .capacityExceeded :=
  ⟨by decide, by decide, by decide, rfl, rfl, rfl⟩

/-- A jump after a STATUS read with BUSY = 1, one before any, and a host past its last line. -/
theorem witness_JumpLinesFollowTheLastStatusRead :
    (mover (hostLine (.jbusy 7) State.reset) = .host ∧
      (hostLine (.jbusy 7) State.reset).host.program[(hostLine (.jbusy 7) State.reset).host.line]? = some (.jbusy 7) ∧
      (hostLine (.jbusy 7) State.reset).host.sawBusy = false) ∧
    (takeTurn (hostLine (.rd .status) (startCommand 1 State.reset))).host.sawBusy = true ∧
    (mover State.reset = .host ∧ State.reset.host.program[State.reset.host.line]? = none) := by decide

theorem witness_Crc32WorkedExamples :
    (held 1 1 [0x31, 0x32, 0x33, 0x34, 0x35, 0x36, 0x37, 0x38, 0x39] []).opa =
      some [0x31, 0x32, 0x33, 0x34, 0x35, 0x36, 0x37, 0x38, 0x39] ∧
    (held 1 1 [0x00] []).opa = some [0x00] := by decide

theorem witness_PseudoInstructionExpansions :
    intWord 64 1 = some 1 ∧ intWord 64 (-9223372036854775808) = some 0x8000000000000000 := by decide

/-- The invariant at reset and in a pending state, each with its step. -/
theorem witness_StepKeepsInstanceInvariant :
    State.reset.Inv ∧ step State.reset = .next (takeTurn State.reset) ∧ (pendingCore 1 (held 1 1 [] [])).Inv :=
  ⟨by decide, rfl, by decide⟩

/-- IDLE to PENDING by a CMD line; PENDING to IDLE by the core. -/
theorem witness_CommandMachineTransitions :
    ((hostLine (.cmd .crc32) State.reset).busy = false ∧
      (takeTurn (hostLine (.cmd .crc32) State.reset)).busy = true) ∧
    ((pendingCore 6 State.reset).busy = true ∧ (takeTurn (pendingCore 6 State.reset)).busy = false) := by decide

/-- Each operand register changed by its own line. -/
theorem witness_OperandsChangeOnlyByWriteOrReset :
    mover (hostLine (.wr (.width 1)) State.reset) ≠ .reset ∧
    (takeTurn (hostLine (.wr (.width 1)) State.reset)).width ≠ State.reset.width ∧
    (takeTurn (hostLine (.wr (.height 1)) State.reset)).height ≠ State.reset.height ∧
    (takeTurn (hostLine (.wr (.opa [])) State.reset)).opa ≠ State.reset.opa ∧
    (takeTurn (hostLine (.wr (.opb [])) State.reset)).opb ≠ State.reset.opb := by decide

theorem witness_ResultsLastUntilCmdWriteOrReset :
    (hostLine (.rd .status) State.reset).busy = false ∧
    (takeTurn (hostLine (.rd .status) State.reset)).busy = false ∧
    mover (hostLine (.rd .status) State.reset) ≠ .reset := by decide

theorem witness_RecordedStopsAreNeverRemoved :
    step (recordFault .readNoValue State.reset) = .next (takeTurn (recordFault .readNoValue State.reset)) ∧
    (takeTurn (recordFault .readNoValue State.reset)).faults = [.readNoValue] := ⟨rfl, by decide⟩

/-- A recorded fault and a recorded refusal, one step each. -/
theorem witness_StoppedInstanceIsNeverFinal :
    (recordFault .readNoValue State.reset).faults ≠ [] ∧
    (recordRefusal .capacityExceeded State.reset).refusals ≠ [] ∧
    Host.Core.run Sys2Proof.core 1 (recordFault .readNoValue State.reset) =
      .next (takeTurn (recordFault .readNoValue State.reset)) := ⟨by decide, by decide, rfl⟩

theorem witness_PlatformInstancesAreIndependent :
    (0 : Nat) ≠ 1 ∧ platformAdmitted ⟨[State.reset, State.reset]⟩ = true := by decide

end Sys2Proof.Tests
end

section
/-! Big-endian words (00_scope.md R6): the four bytes of `u32be` as base-256 digits, and the number read back. -/

namespace Sys2Proof.Machine

/-- Each byte of a word is the quotient by the power of two below it, cut to eight bits. -/
theorem extractByte_eq_ofNat_div (v : Word32) (k : Nat) :
    v.extractLsb' k 8 = BitVec.ofNat 8 (v.toNat / 2 ^ k) := by
  rw [BitVec.extractLsb', Nat.shiftRight_eq_div_pow]

/-- `u32be` lists the base-256 digits of its argument, most significant first (R6). -/
theorem u32be_eq_digits (v : Word32) :
    u32be v = [BitVec.ofNat 8 (v.toNat / 2 ^ 24), BitVec.ofNat 8 (v.toNat / 2 ^ 16),
      BitVec.ofNat 8 (v.toNat / 2 ^ 8), BitVec.ofNat 8 v.toNat] := by
  simp only [u32be, extractByte_eq_ofNat_div, pow_zero, Nat.div_one]

/-- Horner's rule on the digits of `u32be v` gives back `v`: the top digit needs no cut, since `v < 2 ^ 32`. -/
theorem foldl_u32be (v : Word32) :
    (u32be v).foldl (fun n b => n * 256 + b.toNat) 0 = v.toNat := by
  have hv : v.toNat < 2 ^ 32 := v.isLt
  simp only [u32be_eq_digits, List.foldl_cons, List.foldl_nil, BitVec.toNat_ofNat]
  omega

/-- Settles O13: the digits of `u32be` and their Horner sum. -/
theorem u32beIsBigEndian : Obligations.U32beIsBigEndian :=
  fun v => ⟨u32be_eq_digits v, foldl_u32be v⟩

end Sys2Proof.Machine
end

section
/-! The operand registers over a step (10_state.md R20): a move that is not a reset keeps all four, but for an
allowed host write, which sets the register it names. -/

namespace Sys2Proof.Machine

section
variable {δ : Type}

/-- Values of WIDTH, HEIGHT, OPA and OPB, each `none` where the register holds none. -/
abbrev OperandValues : Type := Option Word64 × Option Word64 × Option ByteSeq × Option ByteSeq

/-- What the four operand registers hold. -/
def operandsOf (s : State.Of δ) : OperandValues :=
  (s.width, s.height, s.opa, s.opb)

/-- The operands agree exactly when each register does. -/
theorem operandsOf_eq_iff {s t : State.Of δ} :
    operandsOf t = operandsOf s ↔ t.width = s.width ∧ t.height = s.height ∧ t.opa = s.opa ∧ t.opb = s.opb := by
  simp [operandsOf]

@[simp] theorem operandsOf_setHost (h : HostAgent δ) (s : State.Of δ) : operandsOf (setHost h s) = operandsOf s := rfl

@[simp] theorem operandsOf_recordFault (r : Fault) (s : State.Of δ) :
    operandsOf (recordFault r s) = operandsOf s := rfl

@[simp] theorem operandsOf_recordRefusal (r : Refusal) (s : State.Of δ) :
    operandsOf (recordRefusal r s) = operandsOf s := rfl

@[simp] theorem operandsOf_startCommand (v : Word32) (s : State.Of δ) :
    operandsOf (startCommand v s) = operandsOf s := rfl

@[simp] theorem operandsOf_raiseError (e : ErrorCode) (s : State.Of δ) :
    operandsOf (raiseError e s) = operandsOf s := rfl

/-- No result of a command touches an operand register, in any arm of R25. -/
theorem operandsOf_record_finish (s : State.Of δ) (r : CmdResult δ) :
    operandsOf (record s (finish s r)) = operandsOf s := by
  cases r <;> rfl

/-- The core's move keeps the operands (R20: a command does not consume, clear or change them). -/
theorem operandsOf_coreMove (s : State.Of δ) : operandsOf (coreMove s) = operandsOf s := by
  obtain ⟨-, h⟩ | ⟨-, -, h⟩ | ⟨-, i, -, h⟩ := coreMove_cases s
  · rw [h]
  · rw [h, operandsOf_raiseError]
  · rw [h, commandOf_eq_finish, operandsOf_record_finish]

/-- A host read keeps the operands (R35). -/
theorem operandsOf_hostReadMove (r : Reg) (s : State.Of δ) : operandsOf (hostReadMove r s) = operandsOf s := by
  obtain ⟨_, _, -, h⟩ | ⟨_, -, h⟩ := hostReadMove_cases r s <;> simp [h]

/-- The operand values `o` are those of `s` after the host write, which names an operand register: that one takes
the value written, and the others are kept. -/
inductive OperandWritten (s : State.Of δ) (o : OperandValues) :
    RegWrite δ → Prop
  | width (v : Word64) (h : o = operandsOf (setWidthReg v s)) : OperandWritten s o (.width v)
  | height (v : Word64) (h : o = operandsOf (setHeightReg v s)) : OperandWritten s o (.height v)
  | opa (b : ByteSeq) (h : o = operandsOf (setOpa b s)) : OperandWritten s o (.opa b)
  | opb (b : ByteSeq) (h : o = operandsOf (setOpb b s)) : OperandWritten s o (.opb b)

/-- A host write keeps the operands, or is an allowed write of one of them (R26). -/
theorem hostWriteMove_operands (w : RegWrite δ) (s : State.Of δ) :
    operandsOf (hostWriteMove w s) = operandsOf s ∨
    (s.busy = false ∧ OperandWritten s (operandsOf (hostWriteMove w s)) w) := by
  unfold hostWriteMove
  obtain ⟨v, -, -, h⟩ | ⟨v, rfl, hb, h⟩ | ⟨v, rfl, hb, h⟩ | ⟨b, rfl, hb, -, h⟩ | ⟨b, rfl, hb, -, h⟩ |
    ⟨r, h⟩ | ⟨r, h⟩ := hostWrite_cases w s <;> rw [h]
  · exact .inl (operandsOf_startCommand v s)
  · exact .inr ⟨hb, .width v rfl⟩
  · exact .inr ⟨hb, .height v rfl⟩
  · exact .inr ⟨hb, .opa b rfl⟩
  · exact .inr ⟨hb, .opb b rfl⟩
  · exact .inl (operandsOf_recordFault r s)
  · exact .inl (operandsOf_recordRefusal r s)

/-- A line whose write is not of CMD is a `wr` line (R54). -/
theorem eq_wr_of_lineWrite {l : HostLine δ} {w : RegWrite δ} (h : lineWrite l = some w)
    (hw : ∀ v, w ≠ .cmd v) : l = .wr w := by
  cases l with
  | wr x => exact congrArg HostLine.wr (Option.some.inj h)
  | rd r => cases h
  | cmd m => exact absurd (Option.some.inj h).symm (hw _)
  | cmdRaw v => exact absurd (Option.some.inj h).symm (hw v)
  | jbusy j => cases h

theorem OperandWritten.ne_cmd {s : State.Of δ} {o : OperandValues}
    {w : RegWrite δ} (h : OperandWritten s o w) (v : Word32) : w ≠ .cmd v := by
  cases h <;> simp

/-- The host's move keeps the operands, or its line is an allowed `wr` of one of them. -/
theorem hostMove_operands (s : State.Of δ) :
    operandsOf (hostMove s) = operandsOf s ∨
    (s.busy = false ∧ ∃ w, s.host.program[s.host.line]? = some (.wr w) ∧
      OperandWritten s (operandsOf (hostMove s)) w) := by
  obtain ⟨h, -⟩ | ⟨l, a, hl, ⟨w, hlw, h⟩ | ⟨r, -, h⟩ | ⟨j, -, h⟩⟩ := hostMove_cases s <;> rw [h]
  · exact .inl rfl
  · obtain hk | ⟨hb, hw⟩ := hostWriteMove_operands w s
    · exact .inl hk
    · have hlwr : l = .wr w := eq_wr_of_lineWrite hlw hw.ne_cmd
      exact .inr ⟨hb, w, hlwr ▸ hl, hw⟩
  · exact .inl (operandsOf_hostReadMove r s)
  · exact .inl (operandsOf_setHost a s)

/-- What a turn other than a reset does to the operands (R20). -/
theorem takeTurn_operands (s : State.Of δ) (hr : mover s ≠ .reset) :
    operandsOf (takeTurn s) = operandsOf s ∨
    (mover s = .host ∧ s.busy = false ∧
      ∃ w, s.host.program[s.host.line]? = some (.wr w) ∧ OperandWritten s (operandsOf (takeTurn s)) w) := by
  unfold takeTurn
  cases hm : mover s with
  | host =>
    obtain hk | ⟨hb, w, hl, hw⟩ := hostMove_operands s
    · exact .inl hk
    · exact .inr ⟨rfl, hb, w, hl, hw⟩
  | core => exact .inl (operandsOf_coreMove s)
  | reset => exact absurd hm hr

end

/-- Settles O51: a turn keeps the operands or is an allowed write of one of them, and then only that one differs. -/
theorem operandsChangeOnlyByWriteOrReset : Obligations.OperandsChangeOnlyByWriteOrReset := by
  intro s t hstep hr
  obtain rfl := step_next.1 hstep
  obtain hk | ⟨hm, hb, w, hl, hw⟩ := takeTurn_operands s hr
  · obtain ⟨hwidth, hheight, hopa, hopb⟩ := operandsOf_eq_iff.1 hk
    exact ⟨fun h => absurd hwidth h, fun h => absurd hheight h, fun h => absurd hopa h, fun h => absurd hopb h⟩
  · obtain ⟨v, h⟩ | ⟨v, h⟩ | ⟨b, h⟩ | ⟨b, h⟩ := hw <;>
      obtain ⟨hwidth, hheight, hopa, hopb⟩ := operandsOf_eq_iff.1 h
    · exact ⟨fun _ => ⟨hm, hb, v, hl, hwidth⟩, fun h => absurd hheight h, fun h => absurd hopa h,
        fun h => absurd hopb h⟩
    · exact ⟨fun h => absurd hwidth h, fun _ => ⟨hm, hb, v, hl, hheight⟩, fun h => absurd hopa h,
        fun h => absurd hopb h⟩
    · exact ⟨fun h => absurd hwidth h, fun h => absurd hheight h, fun _ => ⟨hm, hb, b, hl, hopa⟩,
        fun h => absurd hopb h⟩
    · exact ⟨fun h => absurd hwidth h, fun h => absurd hheight h, fun h => absurd hopa h,
        fun _ => ⟨hm, hb, b, hl, hopb⟩⟩

end Sys2Proof.Machine
end

section
/-! The registers after reset (10_state.md R28), and a host write of CMD (R24). -/

namespace Sys2Proof.Machine

section
variable {δ : Type}

/-- Every register is at its reset value (R28): CMD and the STATUS fields are 0, the others hold no value. -/
structure HoldsResetValues (s : State.Of δ) : Prop where
  cmd : s.cmd = 0
  busy : s.busy = false
  done : s.done = false
  err : s.err = 0
  width : s.width = none
  height : s.height = none
  opa : s.opa = none
  opb : s.opb = none
  crcout : s.crcout = none
  out : s.out = none
  errdetail : s.errdetail = none

theorem platformReset_holdsResetValues (s : State.Of δ) : HoldsResetValues (platformReset s) := by
  constructor <;> simp [platformReset]

theorem reset_holdsResetValues : HoldsResetValues State.reset := by
  constructor <;> rfl

theorem platformReset_faults (s : State.Of δ) : (platformReset s).faults = s.faults := rfl

theorem platformReset_refusals (s : State.Of δ) : (platformReset s).refusals = s.refusals := rfl

variable {s : State.Of δ}

theorem HoldsResetValues.statusWord_eq (h : HoldsResetValues s) : statusWord s = 0 := by
  simp [statusWord, h.busy, h.done, h.err]

/-- A host read of any register but CMD and STATUS finds no value (R28). -/
theorem HoldsResetValues.hostRead_eq (h : HoldsResetValues s) {r : Reg} (hc : r ≠ .cmd) (hs : r ≠ .status) :
    hostRead r s = .error .readNoValue := by
  cases r with
  | cmd => exact absurd rfl hc
  | status => exact absurd rfl hs
  | width => simp [hostRead, heldValue, h.width]
  | height => simp [hostRead, heldValue, h.height]
  | opa => simp [hostRead, heldValue, h.opa]
  | opb => simp [hostRead, heldValue, h.opb]
  | crcout => simp [hostRead, whenEnded, heldValue, h.busy, h.crcout]
  | out => simp [hostRead, whenEnded, heldValue, h.busy, h.out]
  | errdetail => simp [hostRead, whenEnded, heldValue, h.busy, h.errdetail]

/-- Every well-formed command reads WIDTH or OPA, so with neither held it faults (R50). -/
theorem cmdResult_of_width_opa_none (hw : s.width = none) (ha : s.opa = none) {i : Instr}
    (hi : i.wellFormed = true) : cmdResult i s = .fault .unwrittenOperand := by
  cases i with
  | crc32 => exact ((crc32Cmd_cases s).resolve_left (by simp [ha])).2
  | frame => exact ((frameCmd_cases s).resolve_right (by simp [hw])).2
  | chunk => exact ((chunkCmd_cases s).resolve_right (by simp [ha])).2
  | encode => exact ((encodeCmd_cases s).resolve_right (by simp [hw])).2
  | ihdr bd ct =>
    have hf : bd = 8 ∧ ct = 6 := by simpa [Instr.wellFormed] using hi
    obtain ⟨-, -, hread⟩ := (ihdrCmd_cases bd ct s).resolve_left (by simp [hf])
    exact (hread.resolve_right (by simp [hw])).2

/-- While BUSY = 0 the guard of R26 row 1 lets the access through. -/
theorem whenIdle_of_idle (hb : s.busy = false) (o : Host.Outcome (State.Of δ) Fault Refusal) :
    whenIdle s o = o := by
  simp [whenIdle, hb]

/-- While BUSY = 1 the guard answers the violation of R26 row 1. -/
theorem whenIdle_of_busy (hb : s.busy = true) (o : Host.Outcome (State.Of δ) Fault Refusal) :
    whenIdle s o = .fault .hostWriteWhileBusy := by
  simp [whenIdle, hb]

end

/-- Settles O40: both reset states hold the reset values, and these decide every read and every command. -/
theorem registersAfterReset : Obligations.RegistersAfterReset := by
  intro s t ht
  have h : HoldsResetValues t := by
    obtain rfl | rfl := ht
    · exact platformReset_holdsResetValues s
    · exact reset_holdsResetValues
  refine ⟨?_, ?_, fun r => h.hostRead_eq, ?_, ?_⟩
  · simp [hostRead, h.cmd]
  · simp [hostRead, h.statusWord_eq]
  · intro i hi
    rw [exec_eq_finish, finish_eq_fault]
    exact cmdResult_of_width_opa_none h.width h.opa hi
  · rintro rfl
    exact ⟨platformReset_faults s, platformReset_refusals s⟩

/-- Settles O41: the write is `startCommand`, allowed only while BUSY = 0. -/
theorem cmdWriteStartsACommand : Obligations.CmdWriteStartsACommand :=
  fun s v => ⟨fun hb => whenIdle_of_idle hb (.next (startCommand v s)),
    fun hb => whenIdle_of_busy hb (.next (startCommand v s))⟩

end Sys2Proof.Machine
end

section
/-! The CRC of the empty sequence (40_crc32.md R58), and the command CRC32 on an operand that is held (R61). -/

namespace Sys2Proof.Machine

/-- R58: the loop does not run, and the final complement cancels the initial value. -/
@[simp] theorem crc32_nil : crc32 [] = 0 := BitVec.xor_self

/-- R61: CRC32 completes where OPA holds a value, and writes CRCOUT and STATUS only. -/
theorem exec_crc32_of_opa {s : State} {b : ByteSeq} (hopa : s.opa = some b) :
    exec .crc32 s = .next { s with crcout := some (crc32 b), busy := false, done := true, err := 0 } := by
  obtain ⟨c, hc, hcmd⟩ := (crc32Cmd_cases s).resolve_right (by simp [hopa])
  obtain rfl : b = c := Option.some.inj (hopa.symm.trans hc)
  rw [exec_eq_finish, cmdResult, hcmd]
  rfl

/-- Settles O5: the command's result on any held operand, at the empty sequence. -/
theorem crc32OfEmptyIsZero : Obligations.Crc32OfEmptyIsZero :=
  ⟨crc32_nil, fun _ hopa => crc32_nil ▸ exec_crc32_of_opa hopa⟩

end Sys2Proof.Machine
end

section
/-! The dimension check as a proposition (44_header_builder.md R80). -/

namespace Sys2Proof.Machine

/-- R80 over the integers: the check's four comparisons, with DIM_MAX evaluated to 2^32 - 1. -/
theorem dimsOk_eq_true_iff {w h : Int} :
    dimsOk w h = true ↔ (1 ≤ w ∧ w ≤ 4294967295) ∧ (1 ≤ h ∧ h ≤ 4294967295) := by
  have hmax : (Config.dimMax : Int) = 4294967295 := by decide
  simp only [dimsOk, hmax, Bool.and_eq_true, decide_eq_true_eq, and_assoc]

/-- Settles O11: the check over the integers, at the registers' signed values. -/
theorem dimensionCheckIsTheRange : Obligations.DimensionCheckIsTheRange :=
  fun _ _ => dimsOk_eq_true_iff

end Sys2Proof.Machine
end

section
/-! A successful ENCODE (45_container_assembler.md R85, R91): OUT takes a container, which begins with SIG (R83). -/

namespace Sys2Proof.Machine

section
variable {δ : Type} {s t : State.Of δ}

theorem errorNumber_ne_zero (e : ErrorCode) : errorNumber e ≠ 0 := by
  cases e <;> decide

/-- ERR = 0 in the next state leaves only the two ok arms of R25. -/
theorem finish_next_of_err_zero {r : CmdResult δ} (h : finish s r = .next t) (herr : t.err = 0) :
    (∃ c, r = .okCrc c ∧ t = setCrcout c (flagsEnded 0 s)) ∨
    (∃ b, r = .okOut b ∧ t = setOut b (flagsEnded 0 s)) := by
  obtain hcrc | hout | ⟨e, -, rfl⟩ | ⟨d, -, rfl⟩ := finish_next h
  · exact .inl hcrc
  · exact .inr hout
  · exact absurd herr (errorNumber_ne_zero e)
  · exact absurd herr (errorNumber_ne_zero .compressionFailure)

/-- What an OUT result of R85 says: both checks passed, the compressor answered some z, short enough for a chunk, and
the result is the container of z. -/
theorem encodePng_eq_okOut {compress : ByteSeq → CompResult δ} {cap : Option Nat} {w h : Int} {b r : ByteSeq}
    (hr : encodePng compress cap w h b = .okOut r) :
    dimsOk w h = true ∧ (b.length : Int) = w * h * 4 ∧
    ∃ z, compress (frame w.toNat h.toNat b) = .ok z ∧ dataTooLong z = false ∧ r = container w h z := by
  unfold encodePng at hr
  obtain ⟨-, hf⟩ | ⟨-, -, hf⟩ | ⟨hd, hl, hf⟩ :=
    framedThen_cases w h b (assembleFile compress cap w h) <;> rw [hf] at hr
  · cases hr
  · cases hr
  · obtain ⟨d, -, ha⟩ | ⟨z, -, -, ha⟩ | ⟨z, hz, hlen, ha⟩ :=
      assembleFile_cases compress cap w h (frame w.toNat h.toNat b) <;> rw [ha] at hr
    · cases hr
    · cases hr
    · obtain ⟨-, ho⟩ | ⟨-, ho⟩ := withinOut_cases (δ := δ) cap (container w h z) <;> rw [ho] at hr
      · exact ⟨hd, hl, z, hz, hlen, (CmdResult.okOut.inj hr).symm⟩
      · cases hr

/-- ENCODE never answers a CRC. -/
theorem encodeCmd_ne_okCrc (s : State.Of δ) (c : Word32) : encodeCmd s ≠ .okCrc c := by
  intro h
  have hcases := cmdResult_cases .encode s
  simp [cmdResult, h] at hcases

/-- An OUT result of R91 is the OUT result of R85 on operands that are held. -/
theorem encodeCmd_eq_okOut {r : ByteSeq} (hr : encodeCmd s = .okOut r) :
    ∃ w h b, s.width = some w ∧ s.height = some h ∧ s.opa = some b ∧
      encodePng (compressPort s.cfg.compressor) s.cfg.capOut w.toInt h.toInt b = .okOut r := by
  obtain ⟨-, hf⟩ | ⟨w, h, b, hw, hh, hb, he⟩ := encodeCmd_cases s
  · cases hf.symm.trans hr
  · exact ⟨w, h, b, hw, hh, hb, he.symm.trans hr⟩

/-- The file begins with SIG, whatever follows it (R85's output order). -/
theorem container_take_signature (w h : Int) (z : ByteSeq) : (container w h z).take 8 = signature := by
  simp only [container, List.append_assoc]
  exact List.take_left' rfl

end

/-- An ENCODE that ends with ERR = 0 writes its OUT result and STATUS, and nothing else (R91). -/
theorem exec_encode_of_err_zero {s t : State} (hexec : exec .encode s = .next t) (herr : t.err = 0) :
    ∃ r, encodeCmd s = .okOut r ∧ t = setOut r (flagsEnded 0 s) := by
  rw [exec_eq_finish] at hexec
  obtain ⟨c, hc, -⟩ | hout := finish_next_of_err_zero hexec herr
  · exact absurd hc (encodeCmd_ne_okCrc s c)
  · exact hout

/-- Settles O25: a success leaves a container in OUT, and every container begins with SIG. -/
theorem everyEncodedFileStartsWithSignature : Obligations.EveryEncodedFileStartsWithSignature := by
  intro s t hexec herr
  obtain ⟨r, hr, rfl⟩ := exec_encode_of_err_zero hexec herr
  obtain ⟨w, h, b, -, -, -, hpng⟩ := encodeCmd_eq_okOut hr
  obtain ⟨-, -, z, -, -, rfl⟩ := encodePng_eq_okOut hpng
  exact ⟨_, rfl, container_take_signature w.toInt h.toInt z⟩

end Sys2Proof.Machine
end

section
/-! The invariant of State (10_state.md R11, R12, R16, R21 to R23): every operation of Machine/Ops.lean that a
move ends with keeps it, and so every move and every step. -/

namespace Sys2Proof.Machine

section
variable {δ : Type} {s : State.Of δ}

/-- The host's own fields are no part of the invariant. -/
theorem inv_setHost {h : HostAgent δ} : (setHost h s).Inv ↔ s.Inv := Iff.rfl

theorem inv_setSched {c : Schedule} : (setSched c s).Inv ↔ s.Inv := Iff.rfl

theorem inv_recordFault {r : Fault} : (recordFault r s).Inv ↔ s.Inv := Iff.rfl

theorem inv_recordRefusal {r : Refusal} : (recordRefusal r s).Inv ↔ s.Inv := Iff.rfl

theorem inv_setWidthReg {v : Word64} : (setWidthReg v s).Inv ↔ s.Inv := Iff.rfl

theorem inv_setHeightReg {v : Word64} : (setHeightReg v s).Inv ↔ s.Inv := Iff.rfl

/-- R37: a sequence within CAP_A is one that OPA can hold. -/
theorem State.Of.Inv.setOpa (h : s.Inv) {b : ByteSeq} (hb : exceeds s.cfg.capA b.length = false) :
    (setOpa b s).Inv := by
  obtain ⟨hpending, hstatus, hresults, hadm, -, hopb, hout⟩ := h
  exact ⟨hpending, hstatus, hresults, hadm, by simp [fits, hb], hopb, hout⟩

/-- R37, for OPB and CAP_B. -/
theorem State.Of.Inv.setOpb (h : s.Inv) {b : ByteSeq} (hb : exceeds s.cfg.capB b.length = false) :
    (setOpb b s).Inv := by
  obtain ⟨hpending, hstatus, hresults, hadm, hopa, -, hout⟩ := h
  exact ⟨hpending, hstatus, hresults, hadm, hopa, by simp [fits, hb], hout⟩

/-- R24: a started command is pending and shows nothing of a result. -/
theorem State.Of.Inv.startCommand (h : s.Inv) (v : Word32) : (startCommand v s).Inv := by
  obtain ⟨-, -, -, hadm, hopa, hopb, -⟩ := h
  exact ⟨fun _ => ⟨rfl, rfl, rfl, rfl, rfl⟩, .inr (.inl ⟨rfl, rfl, rfl⟩),
    by simp [State.Of.ResultsMatch, Machine.startCommand], hadm, hopa, hopb, rfl⟩

/-- R107: only the configuration's part of the invariant is about what a reset keeps. -/
theorem State.Of.Inv.platformReset (h : s.Inv) : (platformReset s).Inv := by
  obtain ⟨-, -, -, hadm, -, -, -⟩ := h
  exact ⟨fun _ => ⟨rfl, rfl, rfl, rfl, rfl⟩, .inl ⟨rfl, rfl, rfl⟩,
    by simp [State.Of.ResultsMatch, Machine.platformReset], hadm, rfl, rfl, rfl⟩

/-- R21, R25: a pending command that ends with a CRC leaves CRCOUT as the one result. -/
theorem State.Of.Inv.endWithCrc (h : s.Inv) (hb : s.busy = true) (c : Word32) :
    (setCrcout c (flagsEnded 0 s)).Inv := by
  obtain ⟨hpending, -, -, hfit⟩ := h
  obtain ⟨-, -, -, hout, hdetail⟩ := hpending hb
  exact ⟨by simp [State.Of.PendingClear], by simp [State.Of.StatusLegal],
    by simp [State.Of.ResultsMatch, hout, hdetail], hfit⟩

/-- R22, R25: a pending command that ends with a sequence within CAP_OUT leaves OUT as the one result. -/
theorem State.Of.Inv.endWithOut (h : s.Inv) (hb : s.busy = true) {b : ByteSeq}
    (hlen : exceeds s.cfg.capOut b.length = false) : (setOut b (flagsEnded 0 s)).Inv := by
  obtain ⟨hpending, -, -, hadm, hopa, hopb, -⟩ := h
  obtain ⟨-, -, hcrc, -, hdetail⟩ := hpending hb
  exact ⟨by simp [State.Of.PendingClear], by simp [State.Of.StatusLegal],
    by simp [State.Of.ResultsMatch, hcrc, hdetail], hadm, hopa, hopb, by simp [fits, hlen]⟩

/-- Only `CompressionFailure` has the code 4 (R92). -/
theorem errorNumber_ne_four {e : ErrorCode} (he : e ≠ .compressionFailure) : errorNumber e ≠ 4 := by
  revert he; cases e <;> decide

/-- R93: a pending command that ends in an error without a report leaves no result. -/
theorem State.Of.Inv.raiseError (h : s.Inv) (hb : s.busy = true) {e : ErrorCode} (he : e ≠ .compressionFailure) :
    (raiseError e s).Inv := by
  obtain ⟨hpending, -, -, hfit⟩ := h
  obtain ⟨-, -, hcrc, hout, hdetail⟩ := hpending hb
  exact ⟨by simp [State.Of.PendingClear, Machine.raiseError],
    .inr (.inr ⟨rfl, rfl, (errorNumber_range e).2⟩),
    by simpa [State.Of.ResultsMatch, Machine.raiseError, hcrc, hout, hdetail]
      using And.intro (errorNumber_ne_zero e) (errorNumber_ne_four he),
    hfit⟩

/-- R23, R71: a pending command that ends in `CompressionFailure` leaves its report and no result. -/
theorem State.Of.Inv.raiseCompressionFailure (h : s.Inv) (hb : s.busy = true) (d : δ) :
    (raiseCompressionFailure d s).Inv := by
  obtain ⟨hpending, -, -, hfit⟩ := h
  obtain ⟨-, -, hcrc, hout, -⟩ := hpending hb
  exact ⟨by simp [State.Of.PendingClear, Machine.raiseCompressionFailure, Machine.raiseError],
    .inr (.inr ⟨rfl, rfl, (errorNumber_range .compressionFailure).2⟩),
    by simp [State.Of.ResultsMatch, Machine.raiseCompressionFailure, Machine.raiseError, hcrc, hout, errorNumber],
    hfit⟩

/-- An OUT result fits CAP_OUT: it was checked against it (R38), or it is IHDR's 13 bytes, which an admitted
configuration has room for (R82, R109 step 1). -/
theorem State.Of.Inv.result_fits (h : s.Inv) {b : ByteSeq}
    (hlen : exceeds s.cfg.capOut b.length = false ∨ b.length = 13) : exceeds s.cfg.capOut b.length = false := by
  obtain ⟨-, -, -, hadm, -⟩ := h
  obtain hlen | hlen := hlen
  · exact hlen
  · exact hlen ▸ hadm

/-- R25: whatever a command's result is, ending a pending command with it keeps the invariant. -/
theorem State.Of.Inv.record_commandOf (h : s.Inv) (hb : s.busy = true) (i : Instr) :
    (record s (commandOf i s)).Inv := by
  rw [commandOf_eq_finish]
  obtain ⟨c, -, hr⟩ | ⟨b, -, hlen, hr⟩ | ⟨e, -, he, hr⟩ | ⟨d, -, hr⟩ | hr | ⟨-, hr⟩ | ⟨-, hr⟩ :=
    cmdResult_cases i s <;> rw [hr]
  · exact h.endWithCrc hb c
  · exact h.endWithOut hb (h.result_fits hlen)
  · exact h.raiseError hb he
  · exact h.raiseCompressionFailure hb d
  · exact inv_recordFault.2 h
  · exact inv_recordRefusal.2 h
  · exact inv_recordRefusal.2 h

theorem State.Of.Inv.coreMove (h : s.Inv) : (coreMove s).Inv := by
  obtain ⟨-, hm⟩ | ⟨hb, -, hm⟩ | ⟨hb, i, -, hm⟩ := coreMove_cases s <;> rw [hm]
  · exact h
  · exact h.raiseError hb (by simp)
  · exact h.record_commandOf hb i

theorem State.Of.Inv.hostWriteMove (h : s.Inv) (w : RegWrite δ) : (hostWriteMove w s).Inv := by
  unfold Machine.hostWriteMove
  obtain ⟨v, -, -, hw⟩ | ⟨v, -, -, hw⟩ | ⟨v, -, -, hw⟩ | ⟨b, -, -, hb, hw⟩ | ⟨b, -, -, hb, hw⟩ | ⟨r, hw⟩ | ⟨r, hw⟩ :=
    hostWrite_cases w s <;> rw [hw]
  · exact h.startCommand v
  · exact inv_setWidthReg.2 h
  · exact inv_setHeightReg.2 h
  · exact h.setOpa hb
  · exact h.setOpb hb
  · exact inv_recordFault.2 h
  · exact inv_recordRefusal.2 h

theorem State.Of.Inv.hostReadMove (h : s.Inv) (r : Reg) : (hostReadMove r s).Inv := by
  obtain ⟨-, _, -, hr⟩ | ⟨_, -, hr⟩ := hostReadMove_cases r s <;> rw [hr]
  · exact inv_setHost.2 h
  · exact inv_recordFault.2 h

theorem State.Of.Inv.hostMove (h : s.Inv) : (hostMove s).Inv := by
  obtain ⟨hm, -⟩ | ⟨-, _, -, ⟨w, -, hm⟩ | ⟨r, -, hm⟩ | ⟨-, -, hm⟩⟩ := hostMove_cases s <;> rw [hm]
  · exact h
  · exact inv_setHost.2 (h.hostWriteMove w)
  · exact inv_setHost.2 (h.hostReadMove r)
  · exact inv_setHost.2 h

/-- Each agent's move keeps the invariant, and the order of moves is no part of it. -/
theorem State.Of.Inv.takeTurn (h : s.Inv) : (takeTurn s).Inv := by
  unfold Machine.takeTurn
  rw [inv_setSched]
  cases mover s with
  | host => exact h.hostMove
  | core => exact h.coreMove
  | reset => exact h.platformReset

end

/-- Settles O49: a step is a turn, and every turn keeps the invariant. -/
theorem stepKeepsInstanceInvariant : Obligations.StepKeepsInstanceInvariant := by
  intro s t h hstep
  obtain rfl := step_next.1 hstep
  exact h.takeTurn

/-- Settles O48: no register but CMD and STATUS holds a value, and the capacities are unbounded. -/
theorem resetMeetsInstanceInvariant : Obligations.ResetMeetsInstanceInvariant := by
  unfold Obligations.ResetMeetsInstanceInvariant
  decide

end Sys2Proof.Machine
end

section
/-! The command word (30_encoding.md R47 to R52): a word is its four fields, and the decoder refuses it for one of them
or reads the command whose word it is. -/

namespace Sys2Proof

/-- No bit of a word lies outside its four fields (R47). -/
theorem packFields_fields (v : Word32) : packFields (rsvField v) (ctField v) (bdField v) (opField v) = v := by
  ext i hi
  simp [packFields, rsvField, ctField, bdField, opField]
  grind

/-- R52's condition on the fields of a word that is no command. -/
def IllegalFields (v : Word32) : Prop :=
  rsvField v ≠ 0 ∨ opField v = 0x00 ∨ 0x06 ≤ opField v ∨
  (opField v = 0x04 ∧ (bdField v ≠ 8 ∨ ctField v ≠ 6)) ∨
  (opField v ≠ 0x04 ∧ (bdField v ≠ 0 ∨ ctField v ≠ 0))

/-- R49: five commands have a legal word. -/
theorem Instr.wellFormed_iff {i : Instr} :
    i.wellFormed = true ↔ i = .crc32 ∨ i = .frame ∨ i = .chunk ∨ i = .ihdr 8 6 ∨ i = .encode := by
  cases i <;> simp [Instr.wellFormed]

/-- R48: the word of a well-formed command passes every check. -/
theorem decode_encode {i : Instr} (hi : i.wellFormed = true) : decode (encode i) = .ok i := by
  obtain rfl | rfl | rfl | rfl | rfl := Instr.wellFormed_iff.1 hi <;> decide

/-- R48, R49: the word of a well-formed command has no wrong field. -/
theorem not_illegalFields_encode {i : Instr} (hi : i.wellFormed = true) : ¬ IllegalFields (encode i) := by
  unfold IllegalFields
  obtain rfl | rfl | rfl | rfl | rfl := Instr.wellFormed_iff.1 hi <;> decide

/-- A word that passes R51's checks and is not IHDR's is its opcode, with 0 in every other field. -/
theorem packFields_plain {v : Word32} {op : Byte} (hop : opField v = op) (hrsv : ¬ rsvField v ≠ 0)
    (hfields : ¬ (opField v ≠ 0x04 ∧ (bdField v ≠ 0 ∨ ctField v ≠ 0))) (hne : op ≠ 0x04) :
    packFields 0 0 0 op = v := by
  obtain ⟨hbd, hct⟩ : bdField v = 0 ∧ ctField v = 0 := by grind
  conv_rhs => rw [← packFields_fields v, not_not.1 hrsv, hbd, hct, hop]

/-- R51 and R52: a word is refused for one of its fields, or it is the word of the well-formed command that is read
from it. -/
theorem decode_cases (v : Word32) :
    (IllegalFields v ∧ ∃ e, decode v = .error e) ∨
    ∃ i : Instr, i.wellFormed = true ∧ encode i = v ∧ decode v = .ok i := by
  unfold decode
  split_ifs with hrsv hdepth hfields h1 h2 h3 h4 h5
  · exact .inl ⟨.inl hrsv, _, rfl⟩
  · exact .inl ⟨.inr (.inr (.inr (.inl hdepth))), _, rfl⟩
  · exact .inl ⟨.inr (.inr (.inr (.inr hfields))), _, rfl⟩
  · exact .inr ⟨.crc32, rfl, packFields_plain h1 hrsv hfields (by decide), rfl⟩
  · exact .inr ⟨.frame, rfl, packFields_plain h2 hrsv hfields (by decide), rfl⟩
  · exact .inr ⟨.chunk, rfl, packFields_plain h3 hrsv hfields (by decide), rfl⟩
  · obtain ⟨hbd, hct⟩ : bdField v = 8 ∧ ctField v = 6 := by grind
    have hword := packFields_fields v
    rw [not_not.1 hrsv, h4] at hword
    exact .inr ⟨.ihdr (bdField v) (ctField v), by simp [Instr.wellFormed, hbd, hct], hword, rfl⟩
  · exact .inr ⟨.encode, rfl, packFields_plain h5 hrsv hfields (by decide), rfl⟩
  · have hop : opField v = 0x00 ∨ 0x06 ≤ opField v := by bv_omega
    exact .inl ⟨.inr (hop.imp_right .inl), _, rfl⟩

/-- The round trip in both directions (R48, R51). -/
theorem decode_eq_ok_iff {v : Word32} {i : Instr} : decode v = .ok i ↔ i.wellFormed = true ∧ encode i = v := by
  constructor
  · intro h
    obtain ⟨-, e, he⟩ | ⟨j, hj, hword, hdec⟩ := decode_cases v
    · cases he.symm.trans h
    · obtain rfl : j = i := Except.ok.inj (hdec.symm.trans h)
      exact ⟨hj, hword⟩
  · rintro ⟨hi, rfl⟩
    exact decode_encode hi

/-- R52's conditions on a refused word are exhaustive and exclude the legal words. -/
theorem exists_decode_error_iff {v : Word32} : (∃ e, decode v = .error e) ↔ IllegalFields v := by
  obtain ⟨hfields, herr⟩ | ⟨i, hi, rfl, hdec⟩ := decode_cases v
  · exact iff_of_true herr hfields
  · exact iff_of_false (by simp [hdec]) (not_illegalFields_encode hi)

/-- R48's table: the words of the five well-formed commands. -/
theorem exists_decode_ok_iff {v : Word32} :
    (∃ i, decode v = .ok i) ↔
      v = 0x00000001 ∨ v = 0x00000002 ∨ v = 0x00000003 ∨ v = 0x00060804 ∨ v = 0x00000005 := by
  have hwords : encode .crc32 = 0x00000001 ∧ encode .frame = 0x00000002 ∧ encode .chunk = 0x00000003 ∧
      encode (.ihdr 8 6) = 0x00060804 ∧ encode .encode = 0x00000005 := by decide
  obtain ⟨hcrc, hframe, hchunk, hihdr, hencode⟩ := hwords
  simp only [decode_eq_ok_iff, Instr.wellFormed_iff, or_and_right, exists_or, exists_eq_left, hcrc, hframe, hchunk,
    hihdr, hencode, eq_comm (a := v)]

/-- Settles O1: the round trip, for every word and every command. -/
theorem decodeAcceptsExactlyEncodings : Obligations.DecodeAcceptsExactlyEncodings :=
  fun _ _ => decode_eq_ok_iff

/-- Settles O2: the words of the well-formed commands, and R52's conditions on the others. -/
theorem legalWordsAreExactlyFive : Obligations.LegalWordsAreExactlyFive :=
  fun _ => ⟨exists_decode_ok_iff, exists_decode_error_iff⟩

/-- Settles O3: the decoder evaluated on nine words. -/
theorem sampleWordsDecode : Obligations.SampleWordsDecode := by
  unfold Obligations.SampleWordsDecode
  decide

end Sys2Proof
end

section
/-! The CRC engine (40_crc32.md R56, R57, R61): a byte's table entry stands for its eight bit steps, the bit steps lose
nothing of the register, and they are those of the loop on integers. -/

namespace Sys2Proof.Machine

/-- The low bit that selects the polynomial, as a bit of the word. -/
theorem crcBit_eq (c : Word32) : crcBit c = if c.getLsbD 0 then (c >>> 1) ^^^ crcPoly else c >>> 1 := by
  have hlow : c &&& 1 = BitVec.setWidth 32 (BitVec.ofBool (c.getLsbD 0)) := by
    ext i hi
    rcases i with _ | i <;> simp [BitVec.getElem_one]
  rw [crcBit, hlow]
  cases c.getLsbD 0 <;> rfl

/-! ## The table form (R57) -/

/-- Bit steps on a word whose low bits are 0 only shift them out. -/
theorem crcBits_of_low_zero : ∀ {n : Nat} {c : Word32}, (∀ i < n, c.getLsbD i = false) → crcBits n c = c >>> n
  | 0, _, _ => rfl
  | n + 1, c, hlow => by
    have hstep : crcBit c = c >>> 1 := by
      rw [crcBit_eq, hlow 0 (by omega)]
      rfl
    have hrest : ∀ i < n, (c >>> 1).getLsbD i = false := fun i hi => by
      simpa [Nat.add_comm] using hlow (i + 1) (by omega)
    rw [crcBits, hstep, crcBits_of_low_zero hrest, ← BitVec.shiftRight_add, Nat.add_comm]

/-- A word is its low byte and the bits above it. -/
theorem low_byte_xor_high (c : Word32) : (c.setWidth 8).setWidth 32 ^^^ (c >>> 8 <<< 8) = c := by
  ext i hi
  by_cases h : i < 8
  · simp [h, BitVec.getLsbD_eq_getElem hi]
  · simp [h, hi, Nat.add_sub_cancel' (Nat.le_of_not_lt h)]

/-- The table entry of the low byte stands for the eight bit steps; the bits above it are shifted down (R57). -/
theorem crcBits_eight (c : Word32) : crcBits 8 c = crcTable (c.setWidth 8) ^^^ (c >>> 8) := by
  have hhigh : crcBits 8 (c >>> 8 <<< 8) = c >>> 8 := by
    rw [crcBits_of_low_zero (by intro i hi; simp [hi])]
    ext i hi
    by_cases h : 8 + i < 32
    · simp [h]
    · simp [h, BitVec.getLsbD_of_ge c (8 + i) (by omega)]
  conv_lhs => rw [← low_byte_xor_high c]
  rw [crcBits_xor, hhigh, crcTable]

theorem crcTableByte_eq_crcByte (c : Word32) (b : Byte) : crcTableByte c b = crcByte c b := by
  have hbyte : b.setWidth 32 >>> 8 = 0#32 := by
    ext i hi
    simp
  rw [crcByte, crcBits_eight, BitVec.ushiftRight_xor_distrib, hbyte, BitVec.xor_zero, crcTableByte]

/-- Settles O6: the loops agree byte by byte. -/
theorem crc32TableFormAgrees : Obligations.Crc32TableFormAgrees := by
  intro s
  rw [crc32Table, crc32, funext₂ crcTableByte_eq_crcByte]

/-! ## One byte changed (R56) -/

/-- A bit step sends no word but 0 to 0: a shift clears the top bit, which the polynomial sets. -/
theorem eq_zero_of_crcBit_eq_zero {c : Word32} (h : crcBit c = 0#32) : c = 0#32 := by
  rw [crcBit_eq] at h
  cases hlow : c.getLsbD 0 with
  | true =>
    have htop := congrArg (BitVec.getLsbD · 31) h
    simp [hlow, crcPoly] at htop
  | false =>
    rw [hlow] at h
    ext i hi
    rcases i with _ | i
    · simpa using hlow
    · have hbit : (c >>> 1).getLsbD i = (0#32).getLsbD i := congrArg (BitVec.getLsbD · i) h
      simpa [Nat.add_comm 1 i, hi] using hbit

theorem crcBit_injective : Function.Injective crcBit := by
  intro a b h
  rw [← BitVec.xor_eq_zero_iff] at h ⊢
  exact eq_zero_of_crcBit_eq_zero (by rw [crcBit_xor, h])

theorem crcBits_injective : ∀ n : Nat, Function.Injective (crcBits n)
  | 0 => Function.injective_id
  | n + 1 => (crcBits_injective n).comp crcBit_injective

/-- A byte step loses nothing of the register. -/
theorem crcByte_injective_left (b : Byte) : Function.Injective (crcByte · b) :=
  fun _ _ h => (BitVec.xor_left_inj _).1 (crcBits_injective 8 h)

/-- A byte step loses nothing of the byte. -/
theorem crcByte_injective_right (c : Word32) : Function.Injective (crcByte c) := fun x y h => by
  have hwide := (BitVec.xor_right_inj _).1 (crcBits_injective 8 h)
  simpa using congrArg (BitVec.setWidth 8) hwide

/-- Registers that differ still differ after any bytes. -/
theorem foldl_crcByte_injective : ∀ q : ByteSeq, Function.Injective (List.foldl crcByte · q)
  | [] => Function.injective_id
  | b :: q => (foldl_crcByte_injective q).comp (crcByte_injective_left b)

/-- Settles O7: the bytes before lead to one register, the byte changes it, and the bytes after keep the change. -/
theorem crc32DetectsOneByteChange : Obligations.Crc32DetectsOneByteChange := by
  intro p q x y hxy h
  rw [crc32, crc32, crcRegister_append, crcRegister_append] at h
  have hregister := foldl_crcByte_injective q ((BitVec.xor_left_inj _).1 h)
  exact hxy (crcByte_injective_right _ hregister)

/-! ## The loop on integers (R56) -/

/-- One bit step of R56 on an integer. -/
def crcBitNat (n : Nat) : Nat := if n % 2 = 1 then n / 2 ^^^ 0xEDB88320 else n / 2

theorem toNat_crcBit (c : Word32) : (crcBit c).toNat = crcBitNat c.toNat := by
  have hodd : c.getLsbD 0 = decide (c.toNat % 2 = 1) := by simp [BitVec.getLsbD, Nat.testBit_zero]
  have hhalf : (c >>> 1).toNat = c.toNat / 2 := by simp [Nat.shiftRight_one]
  rw [crcBit_eq, crcBitNat, hodd]
  by_cases h : c.toNat % 2 = 1
  · simp [h, hhalf, crcPoly]
  · simp [h, hhalf]

theorem toNat_crcBits : ∀ (n : Nat) (c : Word32), (crcBits n c).toNat = crcBitNat^[n] c.toNat
  | 0, _ => rfl
  | n + 1, c => by rw [crcBits, toNat_crcBits n, toNat_crcBit, Function.iterate_succ_apply]

theorem toNat_crcByte (c : Word32) (b : Byte) : (crcByte c b).toNat = crcBitNat^[8] (c.toNat ^^^ b.toNat) := by
  have hbyte : (b.setWidth 32).toNat = b.toNat := BitVec.toNat_setWidth_of_le (by omega)
  rw [crcByte, toNat_crcBits, BitVec.toNat_xor, hbyte]

/-- Settles O59: the register's number goes through R56's loop. -/
theorem crc32IsTheBitSerialLoop : Obligations.Crc32IsTheBitSerialLoop := by
  intro s
  have hloop : s.foldl (fun n b => crcBitNat^[8] (n ^^^ b.toNat)) (0xFFFFFFFF#32).toNat =
      (s.foldl crcByte 0xFFFFFFFF#32).toNat :=
    List.foldl_hom BitVec.toNat fun c b => (toNat_crcByte c b).symm
  rw [crc32, BitVec.toNat_xor]
  exact congrArg (· ^^^ 0xFFFFFFFF) hloop.symm

/-! ## The command CRC32 (R61) -/

/-- Settles O4: CRC32 on an operand that is held. -/
theorem crc32WritesCrcOfOpa : Obligations.Crc32WritesCrcOfOpa :=
  fun _ _ hopa => exec_crc32_of_opa hopa

/-- The CRCs of R61's worked example and corner case. -/
theorem crc32_worked_examples :
    crc32 [0x31, 0x32, 0x33, 0x34, 0x35, 0x36, 0x37, 0x38, 0x39] = 0xCBF43926 ∧ crc32 [0x00] = 0xD202EF8D := by
  decide +kernel

/-- Settles O58: the command's result on an operand that is held, at the two examples. -/
theorem crc32WorkedExamples : Obligations.Crc32WorkedExamples :=
  fun _ => ⟨fun hopa => crc32_worked_examples.1 ▸ exec_crc32_of_opa hopa,
    fun hopa => crc32_worked_examples.2 ▸ exec_crc32_of_opa hopa⟩

end Sys2Proof.Machine
end

section
/-! The scanline stream (41_scanline_framer.md R62 to R64) row by row, and taking the filter bytes off it
(45_container_assembler.md R90). -/

namespace Sys2Proof.Machine

theorem getElem?_slice (b : ByteSeq) (i : Nat) {n k : Nat} (hk : k < n) : (slice b i n)[k]? = b[i + k]? := by
  rw [slice, List.getElem?_take_of_lt hk, List.getElem?_drop]

/-- A slice without its first byte. -/
theorem drop_one_slice (b : ByteSeq) (i n : Nat) : (slice b i (1 + n)).drop 1 = slice b (i + 1) n := by
  rw [slice, slice, List.drop_take, List.drop_drop, Nat.add_sub_cancel_left]

@[simp] theorem length_framedRow (row : ByteSeq) : (framedRow row).length = 1 + row.length := by
  rw [framedRow, List.length_cons, Nat.add_comm]

/-- R63: each of the `h` rows takes its filter byte and its bytes. -/
theorem length_frame {w : Nat} {b : ByteSeq} : ∀ {h : Nat}, h * w * 4 ≤ b.length →
    (frame w h b).length = h * (1 + w * 4)
  | 0, _ => by simp
  | h + 1, hle => by
    have hrow : h * w * 4 + w * 4 ≤ b.length := by
      calc h * w * 4 + w * 4 = (h + 1) * w * 4 := by ring
        _ ≤ b.length := hle
    rw [frame_succ, List.length_append, length_frame (by omega), length_framedRow, length_slice hrow]
    ring

/-- R62, R64: row `y` of the stream is row `y` of the raster behind its filter byte. -/
theorem slice_frame {w : Nat} {b : ByteSeq} : ∀ {h : Nat}, h * w * 4 ≤ b.length → ∀ {y : Nat}, y < h →
    slice (frame w h b) (y * (1 + w * 4)) (1 + w * 4) = framedRow (slice b (y * w * 4) (w * 4))
  | 0, _, _, hy => absurd hy (Nat.not_lt_zero _)
  | h + 1, hle, y, hy => by
    have hrow : h * w * 4 + w * 4 ≤ b.length := by
      calc h * w * 4 + w * 4 = (h + 1) * w * 4 := by ring
        _ ≤ b.length := hle
    have hlen : (frame w h b).length = h * (1 + w * 4) := length_frame (by omega)
    rw [frame_succ]
    obtain hlt | rfl := Nat.lt_succ_iff_lt_or_eq.1 hy
    · have hin : y * (1 + w * 4) + (1 + w * 4) ≤ (frame w h b).length := by
        calc y * (1 + w * 4) + (1 + w * 4) = (y + 1) * (1 + w * 4) := by ring
          _ ≤ h * (1 + w * 4) := Nat.mul_le_mul_right _ hlt
          _ = (frame w h b).length := hlen.symm
      rw [slice_append_left hin, slice_frame (by omega) hlt]
    · have hlast := slice_append_right (frame w y b) (framedRow (slice b (y * w * 4) (w * 4))) 0 (1 + w * 4)
      rw [hlen, Nat.add_zero] at hlast
      rw [hlast, slice, List.drop_zero, List.take_of_length_le (by rw [length_framedRow, length_slice hrow])]

/-- R64, R65: what stands behind the filter byte of row `y` is the raster's row. -/
theorem slice_frame_pixels {w h : Nat} {b : ByteSeq} (hle : h * w * 4 ≤ b.length) {y : Nat} (hy : y < h) :
    slice (frame w h b) (y * (1 + w * 4) + 1) (w * 4) = slice b (y * w * 4) (w * 4) := by
  rw [← drop_one_slice, slice_frame hle hy]
  rfl

/-- The rows of a raster, one after the other, are its first bytes. -/
theorem flatMap_rows (w : Nat) (b : ByteSeq) : ∀ h : Nat,
    (List.range h).flatMap (fun y => slice b (y * w * 4) (w * 4)) = b.take (h * w * 4)
  | 0 => by simp
  | h + 1 => by
    have hsplit : (h + 1) * w * 4 = h * w * 4 + w * 4 := by ring
    rw [List.range_succ, List.flatMap_append, flatMap_rows w b h, List.flatMap_singleton, hsplit, List.take_add, slice]

/-- R90: the filter byte taken off each row leaves the raster. -/
theorem unframe_frame {w h : Nat} {b : ByteSeq} (hlen : b.length = h * w * 4) : unframe w h (frame w h b) = b := by
  have hrows : unframe w h (frame w h b) = (List.range h).flatMap fun y => slice b (y * w * 4) (w * 4) :=
    List.flatMap_congr fun y hy => slice_frame_pixels hlen.ge (List.mem_range.1 hy)
  rw [hrows, flatMap_rows, ← hlen, List.take_length]

/-- Settles O9: the stream's length, and each row's slice read byte by byte. -/
theorem framedStreamBytes : Obligations.FramedStreamBytes := by
  intro w h b _ _ hb
  have hle : h * w * 4 ≤ b.length := by rw [hb, Nat.mul_comm h w]
  refine ⟨length_frame hle, fun y hy => ⟨?_, fun k hk => ?_⟩⟩
  · have hfilter := getElem?_slice (frame w h b) (y * (1 + w * 4)) (n := 1 + w * 4) (k := 0) (by omega)
    rw [slice_frame hle hy, Nat.add_zero] at hfilter
    exact hfilter.symm
  · rw [← getElem?_slice _ _ hk, ← getElem?_slice _ _ hk, slice_frame_pixels hle hy]

/-- Settles O10: the rows without their filter bytes, put together again. -/
theorem unframingGivesBackTheRaster : Obligations.UnframingGivesBackTheRaster :=
  fun w h _ _ _ hb => unframe_frame (hb.trans (by rw [Nat.mul_comm w h]))

end Sys2Proof.Machine
end

section
/-! The commands on operands that are held: FRAME and ENCODE on a legal raster and on a wrong one (41_scanline_framer.md
R66, 45_container_assembler.md R85), CHUNK (43_chunk_serializer.md R79) and IHDR (44_header_builder.md R82), each up to
the capacity check (60_exceptions.md R94). -/

namespace Sys2Proof.Machine

section
variable {δ : Type} {s : State.Of δ}

/-! ## The checks the commands share -/

/-- R38: a result within the capacity is the command's result. -/
theorem withinOut_of_fits {cap : Option Nat} {r : ByteSeq} (h : ∀ c, cap = some c → r.length ≤ c) :
    withinOut (δ := δ) cap r = .okOut r := by
  rw [withinOut, exceeds_eq_false.2 h]
  rfl

/-- R38: a result over the capacity is refused. -/
theorem withinOut_of_lt {cap : Option Nat} {r : ByteSeq} {c : Nat} (hcap : cap = some c) (h : c < r.length) :
    withinOut (δ := δ) cap r = .refuse .capacityExceeded := by
  simp [withinOut, hcap, h]

/-- R80: dimensions outside the range fail the check. -/
theorem dimsOk_eq_false {w h : Int} (hout : ¬ (1 ≤ w ∧ w ≤ 4294967295 ∧ 1 ≤ h ∧ h ≤ 4294967295)) :
    dimsOk w h = false := by
  rwa [← and_assoc, ← dimsOk_eq_true_iff, Bool.not_eq_true] at hout

/-- R94 row 3: dimensions out of range come first. -/
theorem framedThen_of_bad_dims {w h : Int} (hd : dimsOk w h = false) (b : ByteSeq) (k : ByteSeq → CmdResult δ) :
    framedThen w h b k = .error .invalidDimensions := by
  rw [framedThen, if_pos hd]

/-- R94 row 4: a wrong length comes next. -/
theorem framedThen_of_bad_length {w h : Int} (hd : dimsOk w h = true) {b : ByteSeq}
    (hl : (b.length : Int) ≠ w * h * 4) (k : ByteSeq → CmdResult δ) :
    framedThen w h b k = .error .invalidRaster := by
  rw [framedThen, if_neg (by simp [hd]), if_pos hl]

/-- A legal raster reaches what follows the checks, framed. -/
theorem framedThen_of_legal {w h : Int} (hd : dimsOk w h = true) {b : ByteSeq} (hl : (b.length : Int) = w * h * 4)
    (k : ByteSeq → CmdResult δ) : framedThen w h b k = k (frame w.toNat h.toNat b) := by
  obtain ⟨hbad, -⟩ | ⟨-, hbad, -⟩ | ⟨-, -, hk⟩ := framedThen_cases w h b k
  · simp [hd] at hbad
  · exact absurd hl hbad
  · exact hk

/-- A positive signed value is the unsigned one. -/
theorem toNat_toInt_of_pos {n : Nat} {v : BitVec n} (h : 1 ≤ v.toInt) : v.toInt.toNat = v.toNat := by
  have hv := v.isLt
  rw [BitVec.toInt_eq_toNat_cond] at h ⊢
  split_ifs at h ⊢ <;> omega

/-! ## The raster commands -/

/-- WIDTH, HEIGHT and OPA hold values. -/
structure HoldsRaster (s : State.Of δ) (w h : Word64) (b : ByteSeq) : Prop where
  width : s.width = some w
  height : s.height = some h
  opa : s.opa = some b

theorem HoldsRaster.frameCmd_eq {w h : Word64} {b : ByteSeq} (hs : HoldsRaster s w h b) :
    frameCmd s = framedThen w.toInt h.toInt b (withinOut s.cfg.capOut) := by
  simp [frameCmd, readDims, readBuffer, hs.width, hs.height, hs.opa]

theorem HoldsRaster.encodeCmd_eq {w h : Word64} {b : ByteSeq} (hs : HoldsRaster s w h b) :
    encodeCmd s = encodePng (compressPort s.cfg.compressor) s.cfg.capOut w.toInt h.toInt b := by
  simp [encodeCmd, readDims, readBuffer, hs.width, hs.height, hs.opa]

/-- FRAME and ENCODE make the same checks on their operands (C1). -/
theorem HoldsRaster.cmdResult_eq {w h : Word64} {b : ByteSeq} (hs : HoldsRaster s w h b) {i : Instr}
    (hi : i = .frame ∨ i = .encode) : ∃ k, cmdResult i s = framedThen w.toInt h.toInt b k := by
  obtain rfl | rfl := hi
  · exact ⟨_, hs.frameCmd_eq⟩
  · exact ⟨_, hs.encodeCmd_eq⟩

/-- The operands hold a raster with dimensions in range and the exact length (R66, R85 step 1). -/
structure HoldsLegalRaster (s : State.Of δ) (w h : Word64) (b : ByteSeq) : Prop extends HoldsRaster s w h b where
  width_pos : 1 ≤ w.toInt
  width_le : w.toInt ≤ 4294967295
  height_pos : 1 ≤ h.toInt
  height_le : h.toInt ≤ 4294967295
  length_eq : (b.length : Int) = w.toInt * h.toInt * 4

section
variable {w h : Word64} {b : ByteSeq} (hs : HoldsLegalRaster s w h b)
include hs

theorem HoldsLegalRaster.framedThen_eq (k : ByteSeq → CmdResult δ) :
    framedThen w.toInt h.toInt b k = k (frame w.toNat h.toNat b) := by
  have hd : dimsOk w.toInt h.toInt = true :=
    dimsOk_eq_true_iff.2 ⟨⟨hs.width_pos, hs.width_le⟩, hs.height_pos, hs.height_le⟩
  rw [framedThen_of_legal hd hs.length_eq, toNat_toInt_of_pos hs.width_pos, toNat_toInt_of_pos hs.height_pos]

/-- R8: the exact product, for the registers' values as natural numbers. -/
theorem HoldsLegalRaster.length_nat : b.length = h.toNat * w.toNat * 4 := by
  have hw : (w.toNat : Int) = w.toInt := by
    rw [← toNat_toInt_of_pos hs.width_pos, Int.toNat_of_nonneg (by linarith [hs.width_pos])]
  have hh : (h.toNat : Int) = h.toInt := by
    rw [← toNat_toInt_of_pos hs.height_pos, Int.toNat_of_nonneg (by linarith [hs.height_pos])]
  have hl := hs.length_eq
  rw [← hw, ← hh, mul_comm (w.toNat : Int)] at hl
  exact_mod_cast hl

/-- R63, for the registers' values. -/
theorem HoldsLegalRaster.length_frame :
    (frame w.toNat h.toNat b).length = h.toNat * (1 + w.toNat * 4) :=
  Machine.length_frame hs.length_nat.ge

theorem HoldsLegalRaster.frameCmd_eq : frameCmd s = withinOut s.cfg.capOut (frame w.toNat h.toNat b) := by
  rw [hs.toHoldsRaster.frameCmd_eq, hs.framedThen_eq]

theorem HoldsLegalRaster.encodeCmd_eq : encodeCmd s =
    assembleFile (compressPort s.cfg.compressor) s.cfg.capOut w.toInt h.toInt (frame w.toNat h.toNat b) := by
  rw [hs.toHoldsRaster.encodeCmd_eq, encodePng, hs.framedThen_eq]

end

/-- R84: the IEND chunk's twelve bytes. -/
theorem iendChunk_eq : iendChunk = [0x00, 0x00, 0x00, 0x00, 0x49, 0x45, 0x4E, 0x44, 0xAE, 0x42, 0x60, 0x82] := by
  decide +kernel

/-- R71: a failure report is the result. -/
theorem assembleFile_of_fail {compress : ByteSeq → CompResult δ} {x : ByteSeq} {d : δ} (hd : compress x = .fail d)
    (cap : Option Nat) (w h : Int) : assembleFile compress cap w h x = .errorCf d := by
  rw [assembleFile, hd]

/-- R85, R94 row 6: compressed data too long for a chunk. -/
theorem assembleFile_of_long {compress : ByteSeq → CompResult δ} {x z : ByteSeq} (hz : compress x = .ok z)
    (hlen : 2147483647 < z.length) (cap : Option Nat) (w h : Int) :
    assembleFile compress cap w h x = .refuse .chunkDataTooLong := by
  simp [assembleFile, hz, dataTooLong_eq_true.2 hlen]

/-- R85: the file of compressed data that a chunk can hold, checked against the capacity. -/
theorem assembleFile_of_ok {compress : ByteSeq → CompResult δ} {x z : ByteSeq} (hz : compress x = .ok z)
    (hlen : z.length ≤ 2147483647) (cap : Option Nat) (w h : Int) :
    assembleFile compress cap w h x = withinOut cap (container w h z) := by
  simp [assembleFile, hz, dataTooLong_eq_false.2 hlen]

/-! ## CHUNK -/

/-- R79's check order on operands that are held. -/
theorem chunkCmd_eq {t d : ByteSeq} (ht : s.opa = some t) (hd : s.opb = some d) :
    chunkCmd s = if t.length ≠ 4 then .error .invalidChunkType
      else if dataTooLong d then .refuse .chunkDataTooLong else withinOut s.cfg.capOut (chunk t d) := by
  rw [chunkCmd, ht, hd]
  rfl

theorem chunkCmd_of_fits {t d : ByteSeq} (ht : s.opa = some t) (hd : s.opb = some d) (htag : t.length = 4)
    (hlen : d.length ≤ 2147483647) : chunkCmd s = withinOut s.cfg.capOut (chunk t d) := by
  simp [chunkCmd_eq ht hd, htag, dataTooLong_eq_false.2 hlen]

/-! ## IHDR -/

/-- R49, R52: other field values are an illegal command, before any operand is read. -/
theorem ihdrCmd_of_fields {bd ct : Byte} (h : bd ≠ 8 ∨ ct ≠ 6) : ihdrCmd bd ct s = .error .illegalCommand :=
  if_pos h

/-- R82 with the legal field values, on operands that are held. -/
theorem ihdrCmd_eq {w h : Word64} (hw : s.width = some w) (hh : s.height = some h) :
    ihdrCmd 8 6 s = if dimsOk w.toInt h.toInt = false then .error .invalidDimensions
      else .okOut (ihdrPayload w.toInt h.toInt 8 6) := by
  have hfields : ¬ ((8 : Byte) ≠ Config.bitDepth ∨ (6 : Byte) ≠ Config.colorType) := by decide
  rw [ihdrCmd, if_neg hfields, readDims, hw, hh]

/-- A dimension in range keeps its value as a 32-bit word (R6, R80). -/
theorem toNat_ofInt_toInt {v : Word64} (hpos : 1 ≤ v.toInt) (hle : v.toInt ≤ 4294967295) :
    (BitVec.ofInt 32 v.toInt).toNat = v.toNat := by
  have hv := toNat_toInt_of_pos hpos
  rw [BitVec.toNat_ofInt]
  omega

/-- R81: the payload of two dimensions in range, byte by byte. -/
theorem ihdrPayload_eq_digits {w h : Word64} (hw : 1 ≤ w.toInt) (hw' : w.toInt ≤ 4294967295) (hh : 1 ≤ h.toInt)
    (hh' : h.toInt ≤ 4294967295) (bd ct : Byte) :
    ihdrPayload w.toInt h.toInt bd ct =
      [BitVec.ofNat 8 (w.toNat / 2 ^ 24), BitVec.ofNat 8 (w.toNat / 2 ^ 16),
       BitVec.ofNat 8 (w.toNat / 2 ^ 8), BitVec.ofNat 8 w.toNat,
       BitVec.ofNat 8 (h.toNat / 2 ^ 24), BitVec.ofNat 8 (h.toNat / 2 ^ 16),
       BitVec.ofNat 8 (h.toNat / 2 ^ 8), BitVec.ofNat 8 h.toNat, bd, ct, 0, 0, 0] := by
  rw [ihdrPayload, u32be_eq_digits, u32be_eq_digits, toNat_ofInt_toInt hw hw', toNat_ofInt_toInt hh hh']
  rfl

end

/-! ## The statements -/

/-- Settles O8: the framed raster is the result, and it fits. -/
theorem frameWritesScanlineStream : Obligations.FrameWritesScanlineStream := by
  intro s w h b hw hh hb hw1 hw2 hh1 hh2 hlen hcap
  have hs : HoldsLegalRaster s w h b := ⟨⟨hw, hh, hb⟩, hw1, hw2, hh1, hh2, hlen⟩
  rw [exec_eq_finish, cmdResult, hs.frameCmd_eq, withinOut_of_fits (by rwa [hs.length_frame])]
  rfl

/-- Settles O12: the two checks that FRAME and ENCODE share, in their order. -/
theorem rasterErrorsInOrder : Obligations.RasterErrorsInOrder := by
  intro i s w h b hi hw hh hb
  have hs : HoldsRaster s w h b := ⟨hw, hh, hb⟩
  obtain ⟨k, hk⟩ := hs.cmdResult_eq hi
  rw [exec_eq_finish, hk]
  split_ifs with hdims
  · intro hlen
    have hd : dimsOk w.toInt h.toInt = true := dimsOk_eq_true_iff.2 (and_assoc.2 hdims)
    rw [framedThen_of_bad_length hd hlen]
    rfl
  · have hd : dimsOk w.toInt h.toInt = false := dimsOk_eq_false hdims
    rw [framedThen_of_bad_dims hd]
    rfl

/-- Settles O14: the chunk is the result, and it fits. -/
theorem chunkWritesSerializedChunk : Obligations.ChunkWritesSerializedChunk := by
  intro s t d ht hd htag hlen hcap
  rw [exec_eq_finish, cmdResult, chunkCmd_of_fits ht hd htag hlen,
    withinOut_of_fits (by rwa [length_chunk d htag])]
  rfl

/-- Settles O16: the tag's length is the first check on the operands. -/
theorem chunkTagLengthIsChecked : Obligations.ChunkTagLengthIsChecked := by
  intro s t d ht hd htag
  rw [exec_eq_finish, cmdResult, chunkCmd_eq ht hd, if_pos htag]
  rfl

/-- Settles O17: the data's length is checked before the capacity. -/
theorem chunkRefusesLongData : Obligations.ChunkRefusesLongData := by
  intro s t d ht hd htag hlen
  rw [exec_eq_finish, cmdResult, chunkCmd_eq ht hd, if_neg (not_not.2 htag), if_pos (dataTooLong_eq_true.2 hlen)]
  rfl

/-- Settles O18: each of the three results is longer than the capacity. -/
theorem resultsOverCapacityAreRefused : Obligations.ResultsOverCapacityAreRefused := by
  refine ⟨?_, ?_, ?_⟩
  · intro s w h b c hw hh hb hw1 hw2 hh1 hh2 hlen hcap hc
    have hs : HoldsLegalRaster s w h b := ⟨⟨hw, hh, hb⟩, hw1, hw2, hh1, hh2, hlen⟩
    rw [exec_eq_finish, cmdResult, hs.frameCmd_eq, withinOut_of_lt hcap (by rwa [hs.length_frame])]
    rfl
  · intro s t d c ht hd htag hlen hcap hc
    rw [exec_eq_finish, cmdResult, chunkCmd_of_fits ht hd htag hlen,
      withinOut_of_lt hcap (by rwa [length_chunk d htag])]
    rfl
  · intro s w h b z c hw hh hb hw1 hw2 hh1 hh2 hlen hz hzlen hcap hc
    have hs : HoldsLegalRaster s w h b := ⟨⟨hw, hh, hb⟩, hw1, hw2, hh1, hh2, hlen⟩
    rw [exec_eq_finish, cmdResult, hs.encodeCmd_eq, assembleFile_of_ok hz hzlen,
      withinOut_of_lt hcap (by rwa [length_container])]
    rfl

/-- Settles O19: the payload is the result, whatever the capacity. -/
theorem ihdrWritesPayload : Obligations.IhdrWritesPayload := by
  intro s w h hw hh hw1 hw2 hh1 hh2
  have hd : dimsOk w.toInt h.toInt = true := dimsOk_eq_true_iff.2 ⟨⟨hw1, hw2⟩, hh1, hh2⟩
  rw [exec_eq_finish, cmdResult, ihdrCmd_eq hw hh, if_neg (by simp [hd]), ihdrPayload_eq_digits hw1 hw2 hh1 hh2]
  rfl

/-- Settles O20: the fields are checked before any operand is read, the dimensions after. -/
theorem ihdrErrorsInOrder : Obligations.IhdrErrorsInOrder := by
  constructor
  · intro s bd ct hfields
    rw [exec_eq_finish, cmdResult, ihdrCmd_of_fields hfields]
    rfl
  · intro s w h hw hh hdims
    have hd : dimsOk w.toInt h.toInt = false := dimsOk_eq_false hdims
    rw [exec_eq_finish, cmdResult, ihdrCmd_eq hw hh, if_pos hd]
    rfl

/-- Settles O21: the container is the result, and it fits. -/
theorem encodeWritesContainer : Obligations.EncodeWritesContainer := by
  intro s w h b z hw hh hb hw1 hw2 hh1 hh2 hlen hz hzlen hcap
  have hs : HoldsLegalRaster s w h b := ⟨⟨hw, hh, hb⟩, hw1, hw2, hh1, hh2, hlen⟩
  rw [exec_eq_finish, cmdResult, hs.encodeCmd_eq, assembleFile_of_ok hz hzlen,
    withinOut_of_fits (by rwa [length_container]), container, iendChunk_eq]
  rfl

/-- Settles O22: the report is the result. -/
theorem encodeReportsCompressionFailure : Obligations.EncodeReportsCompressionFailure := by
  intro s w h b d hw hh hb hw1 hw2 hh1 hh2 hlen hd
  have hs : HoldsLegalRaster s w h b := ⟨⟨hw, hh, hb⟩, hw1, hw2, hh1, hh2, hlen⟩
  rw [exec_eq_finish, cmdResult, hs.encodeCmd_eq, assembleFile_of_fail hd]
  rfl

/-- Settles O23: the compressed data's length is checked before the capacity. -/
theorem encodeRefusesLongCompressedData : Obligations.EncodeRefusesLongCompressedData := by
  intro s w h b z hw hh hb hw1 hw2 hh1 hh2 hlen hz hzlen
  have hs : HoldsLegalRaster s w h b := ⟨⟨hw, hh, hb⟩, hw1, hw2, hh1, hh2, hlen⟩
  rw [exec_eq_finish, cmdResult, hs.encodeCmd_eq, assembleFile_of_long hz hzlen]
  rfl

end Sys2Proof.Machine
end

section
/-! The layout of a chunk (43_chunk_serializer.md R76) and of an encoded file (45_container_assembler.md R87, R88), the
round trip to the raster (R90), and what ENCODE takes from the compressor (42_compressor_port.md R70, R71). -/

namespace Sys2Proof.Machine

/-! ## Chunks -/

/-- The middle one of three pieces, at its offset. -/
theorem slice_middle {x y : ByteSeq} {i n : Nat} (hi : x.length = i) (hn : y.length = n) (z : ByteSeq) :
    slice (x ++ y ++ z) i n = y := by
  rw [slice, List.append_assoc, List.drop_left' hi, List.take_left' hn]

section
variable {t : ByteSeq} (ht : t.length = 4) (d : ByteSeq)

theorem slice_chunk_length (t d : ByteSeq) : slice (chunk t d) 0 4 = u32be (BitVec.ofNat 32 d.length) := by
  rw [chunk, List.append_assoc, List.append_assoc]
  exact slice_middle (x := []) rfl rfl _

include ht

theorem slice_chunk_tag : slice (chunk t d) 4 4 = t := by
  rw [chunk, List.append_assoc]
  exact slice_middle rfl ht _

theorem slice_chunk_data : slice (chunk t d) 8 d.length = d :=
  slice_middle (by rw [List.length_append, length_u32be, ht]) rfl _

theorem slice_chunk_crc : slice (chunk t d) (8 + d.length) 4 = u32be (crc32 (t ++ d)) := by
  rw [← List.append_nil (chunk t d)]
  exact slice_middle (by rw [List.length_append, List.length_append, length_u32be, ht]) rfl _

/-- The bytes that the CRC of a chunk is taken over (R75). -/
theorem slice_chunk_tag_data : slice (chunk t d) 4 (4 + d.length) = t ++ d := by
  rw [chunk, List.append_assoc _ t d]
  exact slice_middle rfl (by rw [List.length_append, ht]) _

end

/-- Settles O15: the fields of a chunk, and the two numbers read back by Horner's rule. -/
theorem chunkBytesLayout : Obligations.ChunkBytesLayout := by
  intro t d ht hd
  refine ⟨length_chunk d ht, ?_, slice_chunk_tag ht d, slice_chunk_data ht d, ?_⟩
  · rw [slice_chunk_length, foldl_u32be, BitVec.toNat_ofNat, Nat.mod_eq_of_lt (by omega)]
  · rw [slice_chunk_crc ht, foldl_u32be]

/-! ## Files -/

section
variable (w h : Int) (z : ByteSeq)

theorem slice_container_signature : slice (container w h z) 0 8 = signature := container_take_signature w h z

theorem length_ihdrChunk (bd ct : Byte) : (chunk tagIhdr (ihdrPayload w h bd ct)).length = 25 := by
  rw [length_chunk _ length_tagIhdr, length_ihdrPayload]

/-- A slice of the file inside its IHDR chunk. -/
theorem slice_container_ihdr {i n : Nat} (hin : i + n ≤ 25) :
    slice (container w h z) (8 + i) n = slice (chunk tagIhdr (ihdrPayload w h 8 6)) i n := by
  rw [container, List.append_assoc, List.append_assoc]
  exact (slice_append_right signature _ i n).trans (slice_append_left (by rwa [length_ihdrChunk]))

/-- A slice of the file inside its IDAT chunk. -/
theorem slice_container_idat {i n : Nat} (hin : i + n ≤ 12 + z.length) :
    slice (container w h z) (33 + i) n = slice (chunk tagIdat z) i n := by
  have hfront : (signature ++ chunk tagIhdr (ihdrPayload w h 8 6)).length = 33 := by
    rw [List.length_append, length_ihdrChunk]
    rfl
  rw [container, List.append_assoc _ (chunk tagIdat z), ← hfront]
  exact (slice_append_right _ _ i n).trans (slice_append_left (by rwa [length_chunk z length_tagIdat]))

/-- What follows the IDAT chunk. -/
theorem drop_container : (container w h z).drop (45 + z.length) = iendChunk := by
  apply List.drop_left'
  rw [List.length_append, List.length_append, length_ihdrChunk, length_chunk z length_tagIdat]
  simp only [signature, List.length_cons, List.length_nil]
  omega

/-- The compressed bytes, where R88 has them. -/
theorem slice_container_data : slice (container w h z) 41 z.length = z := by
  rw [slice_container_idat w h z (i := 8) (by omega), slice_chunk_data length_tagIdat]

end

/-- Settles O24: each field is a slice of one of the file's chunks. -/
theorem encodedFileLayout : Obligations.EncodedFileLayout := by
  intro δ compress cap w h b r hr
  obtain ⟨-, -, z, hz, -, rfl⟩ := encodePng_eq_okOut hr
  have hpayload := length_ihdrPayload w h 8 6
  have ihdr {i n : Nat} (hin : i + n ≤ 25) := slice_container_ihdr w h z hin
  have idat {i n : Nat} (hin : i + n ≤ 12 + z.length) := slice_container_idat w h z hin
  refine ⟨z, hz, length_container w h z, slice_container_signature w h z, ?_, ?_, ?_, ?_, ?_, ?_,
    slice_container_data w h z, ?_, ?_⟩
  · rw [ihdr (i := 0) (by omega), slice_chunk_length, hpayload]
    rfl
  · exact (ihdr (i := 4) (by omega)).trans (slice_chunk_tag length_tagIhdr _)
  · rw [ihdr (i := 8) (by omega), ← hpayload, slice_chunk_data length_tagIhdr]
  · have htagData := slice_chunk_tag_data length_tagIhdr (ihdrPayload w h 8 6)
    have hcrc := slice_chunk_crc length_tagIhdr (ihdrPayload w h 8 6)
    rw [hpayload] at htagData hcrc
    rw [ihdr (i := 21) (by omega), ihdr (i := 4) (by omega), htagData, hcrc]
  · rw [idat (i := 0) (by omega), slice_chunk_length]
  · exact (idat (i := 4) (by omega)).trans (slice_chunk_tag length_tagIdat z)
  · rw [idat (i := 4) (by omega), slice_chunk_tag_data length_tagIdat, ← slice_chunk_crc length_tagIdat,
      ← idat (by omega), ← Nat.add_assoc]
  · rw [drop_container, iendChunk_eq]

/-- What a successful ENCODE held and wrote (R85, R91). -/
theorem HoldsRaster.legal_of_encode {s t : State} {w h : Word64} {b : ByteSeq} (hs : HoldsRaster s w h b)
    (hexec : exec .encode s = .next t) (herr : t.err = 0) :
    HoldsLegalRaster s w h b ∧ ∃ z, compressPort s.cfg.compressor (frame w.toNat h.toNat b) = .ok z ∧
      t.out = some (container w.toInt h.toInt z) := by
  obtain ⟨r, hr, rfl⟩ := exec_encode_of_err_zero hexec herr
  rw [hs.encodeCmd_eq] at hr
  obtain ⟨hd, hl, z, hz, -, rfl⟩ := encodePng_eq_okOut hr
  obtain ⟨⟨hw1, hw2⟩, hh1, hh2⟩ := dimsOk_eq_true_iff.1 hd
  rw [toNat_toInt_of_pos hw1, toNat_toInt_of_pos hh1] at hz
  exact ⟨⟨hs, hw1, hw2, hh1, hh2, hl⟩, z, hz, rfl⟩

/-- Settles O26: the IDAT data is what the compressor answered to the framed raster. -/
theorem encodeRoundTripUnderZlibSound : Obligations.EncodeRoundTripUnderZlibSound := by
  intro fmt inflate s t w h b hsound hconf hw hh hb hexec herr
  obtain ⟨hs, z, hz, hout⟩ := HoldsRaster.legal_of_encode ⟨hw, hh, hb⟩ hexec herr
  have hdata : slice (container w.toInt h.toInt z) 41 ((container w.toInt h.toInt z).length - 57) = z := by
    rw [length_container, Nat.add_sub_cancel_left, slice_container_data]
  obtain ⟨-, hinflate⟩ := hsound _ z hz
  exact ⟨_, _, hout, by rw [hdata, hinflate inflate hconf], rfl, unframe_frame hs.length_nat⟩

/-! ## What ENCODE takes from the compressor -/

section
variable {δ ε : Type}

/-- What follows the shared checks matters only on the framed raster, and only where they pass. -/
theorem framedThen_congr {w h : Int} {b : ByteSeq} {k k' : ByteSeq → CmdResult δ}
    (hk : dimsOk w h = true → (b.length : Int) = w * h * 4 →
      k (frame w.toNat h.toNat b) = k' (frame w.toNat h.toNat b)) :
    framedThen w h b k = framedThen w h b k' := by
  cases hd : dimsOk w h with
  | false => rw [framedThen_of_bad_dims hd, framedThen_of_bad_dims hd]
  | true =>
    by_cases hl : (b.length : Int) = w * h * 4
    · rw [framedThen_of_legal hd hl, framedThen_of_legal hd hl, hk hd hl]
    · rw [framedThen_of_bad_length hd hl, framedThen_of_bad_length hd hl]

theorem assembleFile_congr {f g : ByteSeq → CompResult δ} {x : ByteSeq} (hfg : f x = g x) (cap : Option Nat)
    (w h : Int) : assembleFile f cap w h x = assembleFile g cap w h x := by
  rw [assembleFile, assembleFile, hfg]

/-- R70: the framed raster is never empty. -/
theorem five_le_length_frame {w h : Int} {b : ByteSeq} (hd : dimsOk w h = true) (hl : (b.length : Int) = w * h * 4) :
    5 ≤ (frame w.toNat h.toNat b).length := by
  obtain ⟨m, n, rfl, rfl, hm, -, hn, -⟩ := dimsOk_nat hd
  have hlen : b.length = n * m * 4 := by
    rw [Nat.mul_comm n]
    exact_mod_cast hl
  calc 5 ≤ 1 * (1 + m * 4) := by omega
    _ ≤ n * (1 + m * 4) := Nat.mul_le_mul_right _ hn
    _ = (frame m n b).length := (length_frame hlen.ge).symm

/-- A result with its failure report renamed. -/
def renameResult (rename : δ → ε) : CmdResult δ → CmdResult ε
  | .okCrc c => .okCrc c
  | .okOut r => .okOut r
  | .error e => .error e
  | .errorCf d => .errorCf (rename d)
  | .fault r => .fault r
  | .refuse r => .refuse r

/-- A compressor's answer with its failure report renamed. -/
def renameAnswer (rename : δ → ε) : CompResult δ → CompResult ε
  | .ok z => .ok z
  | .fail d => .fail (rename d)

variable (rename : δ → ε)

theorem withinOut_rename (cap : Option Nat) (r : ByteSeq) :
    withinOut cap r = renameResult rename (withinOut cap r) := by
  rw [withinOut, withinOut]
  split_ifs <;> rfl

/-- R71: only the report of a failure comes from the report that the compressor gave. -/
theorem assembleFile_rename (f : ByteSeq → CompResult δ) (cap : Option Nat) (w h : Int) (x : ByteSeq) :
    assembleFile (fun x => renameAnswer rename (f x)) cap w h x = renameResult rename (assembleFile f cap w h x) := by
  rw [assembleFile, assembleFile]
  cases f x with
  | fail d => rfl
  | ok z =>
    cases hz : dataTooLong z with
    | true => simp [renameAnswer, hz, renameResult]
    | false => simp [renameAnswer, hz, ← withinOut_rename]

/-- The shared checks look at no report. -/
theorem framedThen_rename (w h : Int) (b : ByteSeq) (k : ByteSeq → CmdResult δ) :
    framedThen w h b (fun x => renameResult rename (k x)) = renameResult rename (framedThen w h b k) := by
  cases hd : dimsOk w h with
  | false => rw [framedThen_of_bad_dims hd, framedThen_of_bad_dims hd]; rfl
  | true =>
    by_cases hl : (b.length : Int) = w * h * 4
    · rw [framedThen_of_legal hd hl, framedThen_of_legal hd hl]
    · rw [framedThen_of_bad_length hd hl, framedThen_of_bad_length hd hl]; rfl

theorem encodePng_rename (f : ByteSeq → CompResult δ) (cap : Option Nat) (w h : Int) (b : ByteSeq) :
    encodePng (fun x => renameAnswer rename (f x)) cap w h b = renameResult rename (encodePng f cap w h b) := by
  rw [encodePng, encodePng, ← framedThen_rename, funext (assembleFile_rename rename f cap w h)]

end

/-- Settles O27: the compressor is asked only after the checks, on the framed raster. -/
theorem compressIsCalledOnlyOnTheFramedRaster : Obligations.CompressIsCalledOnlyOnTheFramedRaster := by
  intro δ f g cap w h b hfg
  refine framedThen_congr fun hd hl => assembleFile_congr ?_ cap w h
  obtain ⟨⟨hw1, hw2⟩, hh1, hh2⟩ := dimsOk_eq_true_iff.1 hd
  exact hfg hw1 hw2 hh1 hh2 hl (five_le_length_frame hd hl)

/-- Settles O28: renaming goes through ENCODE's function piece by piece. -/
theorem failureReportPassedThroughUnread : Obligations.FailureReportPassedThroughUnread := by
  intro δ ε rename f cap w h b
  exact encodePng_rename rename f cap w h b

end Sys2Proof.Machine
end

section
/-! Statements for all commands: what a command reads (30_encoding.md R50), what it writes (10_state.md R13, R20,
60_exceptions.md R93), and how it can end or stop (R92, R96, R97). -/

namespace Sys2Proof.Machine

section
variable {δ : Type} {s t : State.Of δ}

/-! ## The operands a command reads -/

/-- The capacity check stops with no fault. -/
theorem withinOut_ne_fault (cap : Option Nat) (r : ByteSeq) (f : Fault) : withinOut (δ := δ) cap r ≠ .fault f := by
  obtain ⟨-, h⟩ | ⟨-, h⟩ := withinOut_cases (δ := δ) cap r <;> simp [h]

theorem assembleFile_ne_fault (compress : ByteSeq → CompResult δ) (cap : Option Nat) (w h : Int) (x : ByteSeq)
    (f : Fault) : assembleFile compress cap w h x ≠ .fault f := by
  obtain ⟨d, -, ha⟩ | ⟨z, -, -, ha⟩ | ⟨z, -, -, ha⟩ := assembleFile_cases compress cap w h x <;> rw [ha]
  · simp
  · simp
  · exact withinOut_ne_fault cap _ f

/-- The shared checks fault only where what follows them does: every `BufRead` of the framer is in range (R36). -/
theorem framedThen_ne_fault {w h : Int} {b : ByteSeq} {k : ByteSeq → CmdResult δ} {f : Fault}
    (hk : ∀ x, k x ≠ .fault f) : framedThen w h b k ≠ .fault f := by
  obtain ⟨-, hf⟩ | ⟨-, -, hf⟩ | ⟨-, -, hf⟩ := framedThen_cases w h b k <;> rw [hf]
  · simp
  · simp
  · exact hk _

/-- R50: a well-formed command faults exactly where a register it reads holds no value. -/
theorem cmdResult_eq_fault_iff {i : Instr} (hi : i.wellFormed = true) :
    cmdResult i s = .fault .unwrittenOperand ↔
      (Reg.width ∈ readsOf i ∧ s.width = none) ∨ (Reg.height ∈ readsOf i ∧ s.height = none) ∨
      (Reg.opa ∈ readsOf i ∧ s.opa = none) ∨ (Reg.opb ∈ readsOf i ∧ s.opb = none) := by
  cases i with
  | crc32 => obtain ⟨b, hb, h⟩ | ⟨hb, h⟩ := crc32Cmd_cases s <;> simp [cmdResult, readsOf, h, hb]
  | frame =>
    obtain ⟨hn, h⟩ | ⟨w, v, b, hw, hv, hb, h⟩ := frameCmd_cases s
    · simpa [cmdResult, readsOf, h] using hn
    · simp [cmdResult, readsOf, h, hw, hv, hb, framedThen_ne_fault, withinOut_ne_fault]
  | chunk =>
    obtain ⟨hn, h⟩ | ⟨t, d, ht, hd, ⟨-, h⟩ | ⟨-, -, h⟩ | ⟨-, -, h⟩⟩ := chunkCmd_cases s
    · simpa [cmdResult, readsOf, h] using hn
    · simp [cmdResult, readsOf, h, ht, hd]
    · simp [cmdResult, readsOf, h, ht, hd]
    · simp [cmdResult, readsOf, h, ht, hd, withinOut_ne_fault]
  | ihdr bd ct =>
    have hf : bd = 8 ∧ ct = 6 := by simpa [Instr.wellFormed] using hi
    obtain ⟨-, -, ⟨hn, h⟩ | ⟨w, v, hw, hv, ⟨-, h⟩ | ⟨-, h⟩⟩⟩ := (ihdrCmd_cases bd ct s).resolve_left (by simp [hf])
    · simpa [cmdResult, readsOf, h] using hn
    · simp [cmdResult, readsOf, h, hw, hv]
    · simp [cmdResult, readsOf, h, hw, hv]
  | encode =>
    obtain ⟨hn, h⟩ | ⟨w, v, b, hw, hv, hb, h⟩ := encodeCmd_cases s
    · simpa [cmdResult, readsOf, h] using hn
    · simp [cmdResult, readsOf, h, hw, hv, hb, encodePng, framedThen_ne_fault, assembleFile_ne_fault]

theorem readDims_congr (hw : s.width = t.width) (hh : s.height = t.height) (k : Int → Int → CmdResult δ) :
    readDims s k = readDims t k := by
  rw [readDims, readDims, hw, hh]

/-- R2, R50: the result is a function of the operands that are read and of the configuration. -/
theorem cmdResult_congr {i : Instr} (hw : Reg.width ∈ readsOf i → s.width = t.width)
    (hh : Reg.height ∈ readsOf i → s.height = t.height) (ha : Reg.opa ∈ readsOf i → s.opa = t.opa)
    (hb : Reg.opb ∈ readsOf i → s.opb = t.opb) (hcfg : s.cfg = t.cfg) : cmdResult i s = cmdResult i t := by
  cases i with
  | crc32 => rw [cmdResult, cmdResult, crc32Cmd, crc32Cmd, ha (by decide)]
  | frame =>
    rw [cmdResult, cmdResult, frameCmd, frameCmd, readDims_congr (hw (by decide)) (hh (by decide)), ha (by decide),
      hcfg]
  | chunk => rw [cmdResult, cmdResult, chunkCmd, chunkCmd, ha (by decide), hb (by decide), hcfg]
  | ihdr bd ct =>
    rw [cmdResult, cmdResult, ihdrCmd, ihdrCmd,
      readDims_congr (hw (by simp [readsOf])) (hh (by simp [readsOf]))]
  | encode =>
    rw [cmdResult, cmdResult, encodeCmd, encodeCmd, readDims_congr (hw (by decide)) (hh (by decide)), ha (by decide),
      hcfg]

/-! ## How a command can end -/

/-- The value of ERR that a result ends a command with, if it ends it (R92). -/
def endCode : CmdResult δ → Option Byte
  | .okCrc _ => some 0
  | .okOut _ => some 0
  | .error e => some (errorNumber e)
  | .errorCf _ => some 4
  | .fault _ => none
  | .refuse _ => none

/-- R25: a command that ends leaves its result's code in ERR. -/
theorem endCode_of_finish {r : CmdResult δ} (h : finish s r = .next t) : endCode r = some t.err := by
  obtain ⟨c, rfl, rfl⟩ | ⟨b, rfl, rfl⟩ | ⟨e, rfl, rfl⟩ | ⟨d, rfl, rfl⟩ := finish_next h <;> rfl

/-- The result stops the command, or ends it with one of the codes. -/
def EndsIn (codes : List Byte) (r : CmdResult δ) : Prop := ∀ c, endCode r = some c → c ∈ codes

variable {codes : List Byte}

/-- A result with a code, by that code. -/
theorem endsIn_of_mem {r : CmdResult δ} {c : Byte} (hr : endCode r = some c) (hc : c ∈ codes) : EndsIn codes r :=
  fun _ h => Option.some.inj (hr.symm.trans h) ▸ hc

/-- A stop ends the command with no code at all. -/
theorem endsIn_of_stop {r : CmdResult δ} (hr : endCode r = none) : EndsIn codes r :=
  fun _ h => nomatch hr.symm.trans h

theorem endsIn_withinOut (h0 : 0 ∈ codes) (cap : Option Nat) (r : ByteSeq) :
    EndsIn codes (withinOut (δ := δ) cap r) := by
  obtain ⟨-, h⟩ | ⟨-, h⟩ := withinOut_cases (δ := δ) cap r <;> rw [h]
  · exact endsIn_of_mem rfl h0
  · exact endsIn_of_stop rfl

/-- R94 rows 3 and 4: the shared checks end with 2 or 1, or leave the code to what follows. -/
theorem endsIn_framedThen (h1 : 1 ∈ codes) (h2 : 2 ∈ codes) {k : ByteSeq → CmdResult δ}
    (hk : ∀ x, EndsIn codes (k x)) (w h : Int) (b : ByteSeq) : EndsIn codes (framedThen w h b k) := by
  obtain ⟨-, hf⟩ | ⟨-, -, hf⟩ | ⟨-, -, hf⟩ := framedThen_cases w h b k <;> rw [hf]
  · exact endsIn_of_mem rfl h2
  · exact endsIn_of_mem rfl h1
  · exact hk _

theorem endsIn_assembleFile (h0 : 0 ∈ codes) (h4 : 4 ∈ codes) (compress : ByteSeq → CompResult δ)
    (cap : Option Nat) (w h : Int) (x : ByteSeq) : EndsIn codes (assembleFile compress cap w h x) := by
  obtain ⟨d, -, ha⟩ | ⟨z, -, -, ha⟩ | ⟨z, -, -, ha⟩ := assembleFile_cases compress cap w h x <;> rw [ha]
  · exact endsIn_of_mem rfl h4
  · exact endsIn_of_stop rfl
  · exact endsIn_withinOut h0 cap _

/-- R92 with the "Errors raised" of each command. -/
def codesOf : Instr → List Byte
  | .crc32 => [0]
  | .frame => [0, 1, 2]
  | .chunk => [0, 3]
  | .ihdr bd ct => if bd = 8 ∧ ct = 6 then [0, 2] else [5]
  | .encode => [0, 1, 2, 4]

theorem cmdResult_endsIn (i : Instr) (s : State.Of δ) : EndsIn (codesOf i) (cmdResult i s) := by
  cases i with
  | crc32 =>
    obtain ⟨b, -, h⟩ | ⟨-, h⟩ := crc32Cmd_cases s <;> rw [cmdResult, h]
    · exact endsIn_of_mem rfl (by decide)
    · exact endsIn_of_stop rfl
  | frame =>
    obtain ⟨-, h⟩ | ⟨w, v, b, -, -, -, h⟩ := frameCmd_cases s <;> rw [cmdResult, h]
    · exact endsIn_of_stop rfl
    · exact endsIn_framedThen (by decide) (by decide) (endsIn_withinOut (by decide) _) _ _ b
  | chunk =>
    obtain ⟨-, h⟩ | ⟨t, d, -, -, ⟨-, h⟩ | ⟨-, -, h⟩ | ⟨-, -, h⟩⟩ := chunkCmd_cases s <;> rw [cmdResult, h]
    · exact endsIn_of_stop rfl
    · exact endsIn_of_mem rfl (by decide)
    · exact endsIn_of_stop rfl
    · exact endsIn_withinOut (by decide) _ _
  | ihdr bd ct =>
    obtain ⟨hf, h⟩ | ⟨rfl, rfl, ⟨-, h⟩ | ⟨w, v, -, -, ⟨-, h⟩ | ⟨-, h⟩⟩⟩ := ihdrCmd_cases bd ct s <;>
      rw [cmdResult, h]
    · rw [codesOf, if_neg (not_and_or.2 hf)]
      exact endsIn_of_mem rfl (by decide)
    · exact endsIn_of_stop rfl
    · exact endsIn_of_mem rfl (by decide)
    · exact endsIn_of_mem rfl (by decide)
  | encode =>
    obtain ⟨-, h⟩ | ⟨w, v, b, -, -, -, h⟩ := encodeCmd_cases s <;> rw [cmdResult, h]
    · exact endsIn_of_stop rfl
    · exact endsIn_framedThen (by decide) (by decide) (endsIn_assembleFile (by decide) (by decide) _ _ _ _) _ _ b

/-- R93: a command that ends in an error has raised it, with a report only in ENCODE. -/
theorem raised_of_finish {i : Instr} (h : finish s (cmdResult i s) = .next t) (herr : t.err ≠ 0) :
    (∃ e, e ≠ .compressionFailure ∧ t = raiseError e s) ∨ (i = .encode ∧ ∃ d, t = raiseCompressionFailure d s) := by
  obtain ⟨c, -, hr⟩ | ⟨b, -, -, hr⟩ | ⟨e, -, he, hr⟩ | ⟨d, hi, hr⟩ | hr | ⟨-, hr⟩ | ⟨-, hr⟩ := cmdResult_cases i s <;>
    rw [hr] at h
  · obtain rfl := Host.Outcome.next.inj h
    exact absurd rfl herr
  · obtain rfl := Host.Outcome.next.inj h
    exact absurd rfl herr
  · exact .inl ⟨e, he, (Host.Outcome.next.inj h).symm⟩
  · exact .inr ⟨hi, d, (Host.Outcome.next.inj h).symm⟩
  · cases h
  · cases h
  · cases h

end

/-- Settles O29: the fault is the command's result exactly where an operand is missing. -/
theorem unwrittenOperandFaultsExactly : Obligations.UnwrittenOperandFaultsExactly := by
  intro i s hi
  rw [exec_eq_finish, finish_eq_fault, cmdResult_eq_fault_iff hi]

/-- Settles O30: the one result is that of the operands on which the states agree. -/
theorem commandsReadOnlyTheirOperands : Obligations.CommandsReadOnlyTheirOperands := by
  intro i s t hw hh ha hb hcfg
  exact ⟨cmdResult i s, exec_eq_finish i s, by rw [exec_eq_finish, cmdResult_congr hw hh ha hb hcfg]⟩

/-- Settles O31: each of R25's arms writes STATUS and result registers only. -/
theorem commandsChangeOnlyStatusAndResults : Obligations.CommandsChangeOnlyStatusAndResults := by
  intro i s t h
  rw [exec_eq_finish] at h
  obtain ⟨c, -, rfl⟩ | ⟨b, -, rfl⟩ | ⟨e, -, rfl⟩ | ⟨d, -, rfl⟩ := finish_next h <;> rfl

/-- Settles O32: an error is raised without a report and then has another code than 4, or with one, by ENCODE. -/
theorem errorsWriteOnlyStatusAndReport : Obligations.ErrorsWriteOnlyStatusAndReport := by
  intro i s t h herr
  rw [exec_eq_finish] at h
  obtain ⟨e, he, rfl⟩ | ⟨hi, d, rfl⟩ := raised_of_finish h herr
  · exact ⟨fun _ => rfl, fun h4 => absurd h4 (errorNumber_ne_four he)⟩
  · exact ⟨fun h4 => absurd rfl h4, fun _ => ⟨hi, d, rfl⟩⟩

/-- Settles O33: the code that a command ends with is one of its own. -/
theorem errorCodesPerCommand : Obligations.ErrorCodesPerCommand := by
  intro i s t h
  rw [exec_eq_finish] at h
  have hcode : t.err ∈ codesOf i := cmdResult_endsIn i s _ (endCode_of_finish h)
  cases i with
  | ihdr bd ct =>
    by_cases hf : bd = 8 ∧ ct = 6
    · simp only [codesOf, if_pos hf] at hcode ⊢
      simpa using hcode
    · simp only [codesOf, if_neg hf] at hcode ⊢
      simpa using hcode
  | _ => simpa [codesOf] using hcode

/-- Settles O34: the stops among the results that a command can have. -/
theorem commandsStopOnlyByNamedReasons : Obligations.CommandsStopOnlyByNamedReasons := by
  intro i s
  simp only [exec_eq_finish, finish_eq_fault, finish_eq_refused]
  obtain ⟨c, -, hr⟩ | ⟨b, -, -, hr⟩ | ⟨e, -, -, hr⟩ | ⟨d, -, hr⟩ | hr | ⟨hi, hr⟩ | ⟨hi, hr⟩ := cmdResult_cases i s <;>
    rw [hr]
  case inr.inr.inr.inr.inl => exact ⟨fun _ h => (CmdResult.fault.inj h).symm, fun _ h => (nomatch h)⟩
  case inr.inr.inr.inr.inr.inl =>
    exact ⟨fun _ h => (nomatch h), fun _ h => .inl ⟨(CmdResult.refuse.inj h).symm, hi⟩⟩
  case inr.inr.inr.inr.inr.inr =>
    exact ⟨fun _ h => (nomatch h), fun _ h => .inr ⟨(CmdResult.refuse.inj h).symm, hi⟩⟩
  all_goals exact ⟨fun _ h => (nomatch h), fun _ h => (nomatch h)⟩

end Sys2Proof.Machine
end

section
/-! The host port: the STATUS word (10_state.md R16), what each write and each read answers (R12, R18, R19, R26;
20_memory.md R37), and the pseudo-instructions of the host script (30_encoding.md R55). -/

namespace Sys2Proof.Machine

section
variable {δ : Type} (s : State.Of δ)

/-! ## STATUS -/

/-- Which field each bit of STATUS shows: BUSY and DONE at 0 and 1, ERR at 8 to 15, and 0 elsewhere (R16). -/
theorem getLsbD_statusWord (i : Nat) : (statusWord s).getLsbD i =
    if i = 0 then s.busy else if i = 1 then s.done else decide (8 ≤ i) && s.err.getLsbD (i - 8) := by
  have herr : 32 ≤ i → s.err.getLsbD (i - 8) = false := fun h => BitVec.getLsbD_of_ge _ _ (by omega)
  simp only [statusWord, BitVec.getLsbD_or, BitVec.getLsbD_shiftLeft, BitVec.getLsbD_setWidth, BitVec.getLsbD_ofBool]
  grind

/-! ## Writes -/

variable {s}

/-- R37: a sequence within the capacity is taken. -/
theorem writeBuffer_of_fits {cap : Option Nat} {b : ByteSeq} (h : ∀ c, cap = some c → b.length ≤ c) (t : State.Of δ) :
    writeBuffer cap b t = .next t := by
  rw [writeBuffer, exceeds_eq_false.2 h]
  rfl

/-- R37: a sequence over the capacity is refused. -/
theorem writeBuffer_of_lt {cap : Option Nat} {b : ByteSeq} {c : Nat} (hcap : cap = some c) (h : c < b.length)
    (t : State.Of δ) : writeBuffer cap b t = .refused .capacityExceeded := by
  simp [writeBuffer, hcap, h]

/-! ## Reads -/

/-- R26: the result registers are not read while BUSY = 1. -/
theorem whenEnded_of_busy (hb : s.busy = true) (o : Except Fault (RegVal δ)) :
    whenEnded s o = .error .hostReadWhileBusy := by
  simp [whenEnded, hb]

theorem whenEnded_of_idle (hb : s.busy = false) (o : Except Fault (RegVal δ)) : whenEnded s o = o := by
  simp [whenEnded, hb]

theorem heldValue_of_some {α : Type} {o : Option α} {x : α} (h : o = some x) (f : α → RegVal δ) :
    heldValue f o = .ok (f x) := by
  rw [h, heldValue]

theorem heldValue_of_none {α : Type} {o : Option α} (h : o = none) (f : α → RegVal δ) :
    heldValue f o = .error .readNoValue := by
  rw [h, heldValue]

end

/-- Settles O45: the word bit by bit. -/
theorem statusWordLayout : Obligations.StatusWordLayout := by
  intro s
  refine ⟨?_, ?_, ?_, ?_, ?_⟩
  · rw [getLsbD_statusWord, if_pos rfl]
  · rw [getLsbD_statusWord, if_neg (by decide), if_pos rfl]
  · ext i hi
    rw [BitVec.getElem_extractLsb', getLsbD_statusWord, if_neg (by omega), if_neg (by omega),
      decide_eq_false (by omega), Bool.false_and]
    simp
  · ext i hi
    rw [BitVec.getElem_extractLsb', getLsbD_statusWord, if_neg (by omega), if_neg (by omega),
      decide_eq_true (by omega), Bool.true_and, Nat.add_sub_cancel_left, BitVec.getLsbD_eq_getElem]
  · ext i hi
    rw [BitVec.getElem_extractLsb', getLsbD_statusWord, if_neg (by omega), if_neg (by omega),
      BitVec.getLsbD_of_ge s.err (16 + i - 8) (by omega), Bool.and_false]
    simp

/-- Settles O42: the guards of the writes and of the reads, row by row, and their record. -/
theorem hostAccessViolations : Obligations.HostAccessViolations := by
  intro s
  refine ⟨fun hb => ?_, ?_, ?_, fun hb => ?_, ?_⟩
  · exact ⟨fun _ => whenIdle_of_busy hb _, fun _ => whenIdle_of_busy hb _, fun _ => whenIdle_of_busy hb _,
      fun _ _ => whenIdle_of_busy hb _, fun _ _ => whenIdle_of_busy hb _, whenEnded_of_busy hb _,
      whenEnded_of_busy hb _, whenEnded_of_busy hb _⟩
  · exact ⟨fun _ => rfl, fun _ => rfl, fun _ => rfl, fun _ => rfl⟩
  · exact ⟨fun h => heldValue_of_none h _, fun h => heldValue_of_none h _, fun h => heldValue_of_none h _,
      fun h => heldValue_of_none h _⟩
  · exact ⟨fun h => (whenEnded_of_idle hb _).trans (heldValue_of_none h _),
      fun h => (whenEnded_of_idle hb _).trans (heldValue_of_none h _),
      fun h => (whenEnded_of_idle hb _).trans (heldValue_of_none h _),
      fun b c hcap hlt => (whenIdle_of_idle hb _).trans (writeBuffer_of_lt hcap hlt _),
      fun b c hcap hlt => (whenIdle_of_idle hb _).trans (writeBuffer_of_lt hcap hlt _)⟩
  · exact ⟨fun w r h => by rw [hostWriteMove, h]; rfl, fun w r h => by rw [hostWriteMove, h]; rfl,
      fun g f h => by rw [hostReadMove, h]; rfl⟩

/-- Settles O43: while BUSY = 0 the guard lets the write through, and a buffer write within its capacity is taken. -/
theorem hostOperandWritesSetOneRegister : Obligations.HostOperandWritesSetOneRegister := by
  intro s hb
  exact ⟨fun v => whenIdle_of_idle hb (.next (setWidthReg v s)),
    fun v => whenIdle_of_idle hb (.next (setHeightReg v s)),
    fun b hcap => (whenIdle_of_idle hb _).trans (writeBuffer_of_fits hcap (setOpa b s)),
    fun b hcap => (whenIdle_of_idle hb _).trans (writeBuffer_of_fits hcap (setOpb b s))⟩

/-- Settles O44: a read gives the value that the register holds, of a result register while BUSY = 0. -/
theorem hostReadsGiveTheRegister : Obligations.HostReadsGiveTheRegister := by
  intro s
  exact ⟨rfl, rfl, fun v h => heldValue_of_some h _, fun v h => heldValue_of_some h _,
    fun b h => heldValue_of_some h _, fun b h => heldValue_of_some h _, fun hb =>
    ⟨fun v h => (whenEnded_of_idle hb _).trans (heldValue_of_some h _),
      fun b h => (whenEnded_of_idle hb _).trans (heldValue_of_some h _),
      fun d h => (whenEnded_of_idle hb _).trans (heldValue_of_some h _)⟩⟩

/-! ## The host script -/

/-- A dimension that is a 64-bit value is written as that value. -/
theorem writeLines_dims {w h : Int} {x y : Word64} (hw : intWord 64 w = some x) (hh : intWord 64 h = some y) :
    writeLines .width (.int w) = some [.wr (.width x)] ∧ writeLines .height (.int h) = some [.wr (.height y)] := by
  simp [writeLines, writeOf, hw, hh]

/-- Settles O47: the dimensions are written as 64-bit values, and the rest of each expansion is evaluated. -/
theorem pseudoInstructionExpansions : Obligations.PseudoInstructionExpansions := by
  intro find p m w h e d x y hw hh
  obtain ⟨hwidth, hheight⟩ := writeLines_dims hw hh
  refine ⟨rfl, rfl, rfl, ?_, rfl, ?_, ?_⟩
  · rw [expandStmt, hwidth, hheight]
    rfl
  · rw [expandStmt, hwidth, hheight]
    rfl
  · rw [expandStmt, hwidth, hheight]
    rfl

end Sys2Proof.Machine
end

section
/-! What a step is, by who moves (20_memory.md R41, R42): the core's step (10_state.md R25), a reset
(70_reset_and_hazards.md R107), and the host's line (30_encoding.md R54). -/

namespace Sys2Proof.Machine

section
variable {s : State}

/-! ## The mover's move -/

/-- The order of moves after a move of agent `t`: the listed turn is used up. -/
theorem step_of_mover {t : Turn} (hm : mover s = t) :
    step s = .next { moveOf t s with sched := { turns := s.sched.turns.tail, coreNext := decide (t = .host) } } := by
  rw [step, takeTurn, hm]
  rfl

theorem step_of_core (hm : mover s = .core) :
    step s = .next { coreMove s with sched := { turns := s.sched.turns.tail, coreNext := false } } :=
  step_of_mover hm

theorem step_of_host (hm : mover s = .host) :
    step s = .next { hostMove s with sched := { turns := s.sched.turns.tail, coreNext := true } } :=
  step_of_mover hm

theorem step_of_reset (hm : mover s = .reset) :
    step s = .next { platformReset s with sched := { turns := s.sched.turns.tail, coreNext := false } } :=
  step_of_mover hm

end

section
variable {δ : Type} {s : State.Of δ}

/-! ## The core's step -/

theorem coreMove_of_idle (hb : s.busy = false) : coreMove s = s := by
  rw [coreMove, if_neg (by simp [hb])]

/-- R25, R51: the end of the decoded command, or the record of its stop. -/
theorem coreMove_of_decode_ok (hb : s.busy = true) {i : Instr} (hd : decode s.cmd = .ok i) :
    coreMove s = record s (commandOf i s) := by
  rw [coreMove, if_pos hb, coreOutcome, hd]

/-- R52: any other word ends in `IllegalCommand`. -/
theorem coreMove_of_decode_error (hb : s.busy = true) {e : DecodeError} (hd : decode s.cmd = .error e) :
    coreMove s = raiseError .illegalCommand s := by
  rw [coreMove, if_pos hb, coreOutcome, hd]
  rfl

/-! ## The host's line -/

theorem hostMove_of_line {l : HostLine δ} (hl : s.host.program[s.host.line]? = some l) : hostMove s = runLine l s := by
  rw [hostMove, hl]

theorem hostMove_of_no_line (hl : s.host.program[s.host.line]? = none) : hostMove s = s := by
  rw [hostMove, hl]

/-- R54: each line that writes makes its write, and the host goes on to the next line. -/
theorem runLine_of_lineWrite {l : HostLine δ} {w : RegWrite δ} (hw : lineWrite l = some w) :
    runLine l s = nextLine (hostWriteMove w s) := by
  cases l with
  | wr x => exact Option.some.inj hw ▸ rfl
  | rd r => cases hw
  | cmd m => exact Option.some.inj hw ▸ rfl
  | cmdRaw v => exact Option.some.inj hw ▸ rfl
  | jbusy t => cases hw

/-- A write leaves the host's own fields. -/
theorem host_of_hostWrite {w : RegWrite δ} {t : State.Of δ} (h : hostWrite w s = .next t) : t.host = s.host := by
  obtain ⟨v, -, -, hw⟩ | ⟨v, -, -, hw⟩ | ⟨v, -, -, hw⟩ | ⟨b, -, -, -, hw⟩ | ⟨b, -, -, -, hw⟩ | ⟨r, hw⟩ | ⟨r, hw⟩ :=
    hostWrite_cases w s <;> cases hw.symm.trans h <;> rfl

/-- Bit 0 of STATUS is BUSY (R16), and only a read of STATUS tells the host (R54). -/
theorem busySeen_eq (r : Reg) (s : State.Of δ) :
    busySeen r s = if r = .status then s.busy else s.host.sawBusy := by
  cases r with
  | status => rw [busySeen, getLsbD_statusWord, if_pos rfl, if_pos rfl]
  | _ => rfl

end

/-! ## The statements -/

/-- Settles O35: the core's move on a decoded command, for each outcome of `exec`. -/
theorem stepRunsTheDecodedCommand : Obligations.StepRunsTheDecodedCommand := by
  intro s i hb hm hd
  rw [step_of_core hm, coreMove_of_decode_ok hb hd, commandOf_eq_exec]
  cases exec i s <;> rfl

/-- Settles O36: a word that is none of the five is refused by the decoder. -/
theorem stepEndsIllegalWords : Obligations.StepEndsIllegalWords := by
  intro s hb hm hcrc hframe hchunk hihdr hencode
  obtain ⟨-, e, he⟩ | ⟨i, -, -, hd⟩ := decode_cases s.cmd
  · rw [step_of_core hm, coreMove_of_decode_error hb he]
    rfl
  · exact absurd (exists_decode_ok_iff.1 ⟨i, hd⟩)
      (by simp only [hcrc, hframe, hchunk, hihdr, hencode, or_self, not_false_eq_true])

/-- Settles O37: an idle core's move is none. -/
theorem idleCoreTurnDoesNothing : Obligations.IdleCoreTurnDoesNothing := by
  intro s hb hm
  rw [step_of_core hm, coreMove_of_idle hb]

/-- Settles O39: the reset field by field, and as the platform's move. -/
theorem resetRestoresResetValues : Obligations.ResetRestoresResetValues :=
  fun _ => ⟨rfl, step_of_reset⟩

/-- Settles O46: a read line keeps what the read gave, or records its violation. -/
theorem hostReadsChangeNoRegister : Obligations.HostReadsChangeNoRegister := by
  intro s r hm hl
  rw [step_of_host hm, hostMove_of_line hl, runLine, hostReadMove, busySeen_eq]
  cases hostRead r s <;> rfl

/-- Settles O56: the words of the mnemonics, and the write of each form of line. -/
theorem hostWriteLinesMakeTheWrite : Obligations.HostWriteLinesMakeTheWrite := by
  refine ⟨by decide, fun s l w hm hl hform => ?_⟩
  have hw : lineWrite l = some w := by
    obtain rfl | ⟨m, rfl, rfl⟩ | ⟨v, rfl, rfl⟩ := hform <;> rfl
  rw [step_of_host hm, hostMove_of_line hl, runLine_of_lineWrite hw, hostWriteMove]
  cases h : hostWrite w s with
  | next t => rw [← host_of_hostWrite h]; rfl
  | fault r => rfl
  | refused r => rfl

/-- Settles O57: the jump sets the host's line only, and an ended host does nothing. -/
theorem jumpLinesFollowTheLastStatusRead : Obligations.JumpLinesFollowTheLastStatusRead := by
  constructor
  · intro s target hm hl
    rw [step_of_host hm, hostMove_of_line hl, runLine]
    cases s.host.sawBusy <;> rfl
  · intro s hm hl
    rw [step_of_host hm, hostMove_of_no_line hl]

end Sys2Proof.Machine
end

section
/-! Rules of every step: what is kept of the command machine and of the results (10_state.md R14, 20_memory.md R42,
70_reset_and_hazards.md R112, R114), of the recorded stops and the configuration (60_exceptions.md R96, R98,
70_reset_and_hazards.md R108), and of the other instances (60_exceptions.md R104). -/

namespace Sys2Proof.Machine

section
variable {δ : Type} {s t : State.Of δ}

/-! ## The registers of the command machine -/

/-- CMD, STATUS and the result registers are as before. -/
structure SameCommand (s t : State.Of δ) : Prop where
  cmd : t.cmd = s.cmd
  busy : t.busy = s.busy
  done : t.done = s.done
  err : t.err = s.err
  crcout : t.crcout = s.crcout
  out : t.out = s.out
  errdetail : t.errdetail = s.errdetail

theorem SameCommand.refl (s : State.Of δ) : SameCommand s s := ⟨rfl, rfl, rfl, rfl, rfl, rfl, rfl⟩

theorem SameCommand.setHost (h : SameCommand s t) (a : HostAgent δ) : SameCommand s (setHost a t) :=
  ⟨h.cmd, h.busy, h.done, h.err, h.crcout, h.out, h.errdetail⟩

theorem sameCommand_recordFault (r : Fault) (s : State.Of δ) : SameCommand s (recordFault r s) :=
  ⟨rfl, rfl, rfl, rfl, rfl, rfl, rfl⟩

theorem sameCommand_recordRefusal (r : Refusal) (s : State.Of δ) : SameCommand s (recordRefusal r s) :=
  ⟨rfl, rfl, rfl, rfl, rfl, rfl, rfl⟩

/-- R24, R26: the one write that touches these registers is an allowed write of CMD. -/
theorem hostWriteMove_command (w : RegWrite δ) (s : State.Of δ) :
    SameCommand s (hostWriteMove w s) ∨
    ∃ v, w = .cmd v ∧ s.busy = false ∧ hostWriteMove w s = startCommand v s := by
  unfold hostWriteMove
  obtain ⟨v, hw, hb, h⟩ | ⟨v, -, -, h⟩ | ⟨v, -, -, h⟩ | ⟨b, -, -, -, h⟩ | ⟨b, -, -, -, h⟩ | ⟨r, h⟩ | ⟨r, h⟩ :=
    hostWrite_cases w s <;> rw [h]
  · exact .inr ⟨v, hw, hb, rfl⟩
  · exact .inl ⟨rfl, rfl, rfl, rfl, rfl, rfl, rfl⟩
  · exact .inl ⟨rfl, rfl, rfl, rfl, rfl, rfl, rfl⟩
  · exact .inl ⟨rfl, rfl, rfl, rfl, rfl, rfl, rfl⟩
  · exact .inl ⟨rfl, rfl, rfl, rfl, rfl, rfl, rfl⟩
  · exact .inl (sameCommand_recordFault r s)
  · exact .inl (sameCommand_recordRefusal r s)

/-- R35: no read touches them. -/
theorem sameCommand_hostReadMove (r : Reg) (s : State.Of δ) : SameCommand s (hostReadMove r s) := by
  obtain ⟨-, a, -, h⟩ | ⟨f, -, h⟩ := hostReadMove_cases r s <;> rw [h]
  · exact (SameCommand.refl s).setHost a
  · exact sameCommand_recordFault f s

/-- The host's move touches them only by a line that starts a command. -/
theorem hostMove_command (s : State.Of δ) :
    SameCommand s (hostMove s) ∨
    (s.busy = false ∧ ∃ l v a, s.host.program[s.host.line]? = some l ∧ lineWrite l = some (.cmd v) ∧
      hostMove s = setHost a (startCommand v s)) := by
  obtain ⟨h, -⟩ | ⟨l, a, hl, ⟨w, hw, h⟩ | ⟨r, -, h⟩ | ⟨j, -, h⟩⟩ := hostMove_cases s <;> rw [h]
  · exact .inl (SameCommand.refl s)
  · obtain hsame | ⟨v, rfl, hb, hstart⟩ := hostWriteMove_command w s
    · exact .inl (hsame.setHost a)
    · exact .inr ⟨hb, l, v, a, hl, hw, by rw [hstart]⟩
  · exact .inl ((sameCommand_hostReadMove r s).setHost a)
  · exact .inl ((SameCommand.refl s).setHost a)

/-- The three forms of line that write CMD (R54). -/
theorem lineWrite_eq_cmd {l : HostLine δ} {v : Word32} (h : lineWrite l = some (.cmd v)) :
    l = .wr (.cmd v) ∨ l = .cmdRaw v ∨ ∃ m, legalWord m = v ∧ l = .cmd m := by
  cases l with
  | wr w => exact .inl (congrArg HostLine.wr (Option.some.inj h))
  | rd r => cases h
  | cmd m => exact .inr (.inr ⟨m, RegWrite.cmd.inj (Option.some.inj h), rfl⟩)
  | cmdRaw u => exact .inr (.inl (congrArg HostLine.cmdRaw (RegWrite.cmd.inj (Option.some.inj h))))
  | jbusy j => cases h

/-- What a turn does to them (R14): nothing, a command's start, or a move of the core or the platform from PENDING or
by a reset. -/
theorem takeTurn_command (s : State.Of δ) :
    SameCommand s (takeTurn s) ∨
    (mover s = .host ∧ s.busy = false ∧ (takeTurn s).busy = true ∧ ∃ l, s.host.program[s.host.line]? = some l ∧
      lineWrite l = some (.cmd (takeTurn s).cmd)) ∨
    (mover s = .core ∧ s.busy = true) ∨ mover s = .reset := by
  unfold takeTurn
  cases hm : mover s with
  | host =>
    obtain h | ⟨hb, l, v, a, hl, hw, h⟩ := hostMove_command s
    · exact .inl ⟨h.cmd, h.busy, h.done, h.err, h.crcout, h.out, h.errdetail⟩
    · rw [moveOf, h]
      exact .inr (.inl ⟨rfl, hb, rfl, l, hl, hw⟩)
  | core =>
    cases hb : s.busy with
    | true => exact .inr (.inr (.inl ⟨rfl, rfl⟩))
    | false =>
      rw [moveOf, coreMove_of_idle hb]
      exact .inl ⟨rfl, rfl, rfl, rfl, rfl, rfl, rfl⟩
  | reset => exact .inr (.inr (.inr rfl))

/-! ## The recorded stops and the configuration -/

/-- The configuration is as before, and nothing recorded is removed. -/
structure KeepsRecord (s t : State.Of δ) : Prop where
  cfg : t.cfg = s.cfg
  faults : s.faults <+: t.faults
  refusals : s.refusals <+: t.refusals

/-- A move that touches none of the three. -/
theorem KeepsRecord.of_eq (hcfg : t.cfg = s.cfg) (hf : t.faults = s.faults) (hr : t.refusals = s.refusals) :
    KeepsRecord s t :=
  ⟨hcfg, hf ▸ List.prefix_refl _, hr ▸ List.prefix_refl _⟩

theorem KeepsRecord.setHost (h : KeepsRecord s t) (a : HostAgent δ) : KeepsRecord s (setHost a t) :=
  ⟨h.cfg, h.faults, h.refusals⟩

theorem KeepsRecord.setSched (h : KeepsRecord s t) (c : Schedule) : KeepsRecord s (setSched c t) :=
  ⟨h.cfg, h.faults, h.refusals⟩

theorem keepsRecord_recordFault (r : Fault) (s : State.Of δ) : KeepsRecord s (recordFault r s) :=
  ⟨rfl, List.prefix_append _ _, List.prefix_refl _⟩

theorem keepsRecord_recordRefusal (r : Refusal) (s : State.Of δ) : KeepsRecord s (recordRefusal r s) :=
  ⟨rfl, List.prefix_refl _, List.prefix_append _ _⟩

/-- Each of R25's arms. -/
theorem keepsRecord_record_finish (s : State.Of δ) (r : CmdResult δ) : KeepsRecord s (record s (finish s r)) := by
  cases r with
  | fault f => exact keepsRecord_recordFault f s
  | refuse f => exact keepsRecord_recordRefusal f s
  | _ => exact .of_eq rfl rfl rfl

theorem keepsRecord_coreMove (s : State.Of δ) : KeepsRecord s (coreMove s) := by
  obtain ⟨-, h⟩ | ⟨-, -, h⟩ | ⟨-, i, -, h⟩ := coreMove_cases s <;> rw [h]
  · exact .of_eq rfl rfl rfl
  · exact .of_eq rfl rfl rfl
  · rw [commandOf_eq_finish]
    exact keepsRecord_record_finish s _

theorem keepsRecord_hostWriteMove (w : RegWrite δ) (s : State.Of δ) : KeepsRecord s (hostWriteMove w s) := by
  unfold hostWriteMove
  obtain ⟨v, -, -, h⟩ | ⟨v, -, -, h⟩ | ⟨v, -, -, h⟩ | ⟨b, -, -, -, h⟩ | ⟨b, -, -, -, h⟩ | ⟨r, h⟩ | ⟨r, h⟩ :=
    hostWrite_cases w s <;> rw [h]
  case inr.inr.inr.inr.inr.inl => exact keepsRecord_recordFault r s
  case inr.inr.inr.inr.inr.inr => exact keepsRecord_recordRefusal r s
  all_goals exact .of_eq rfl rfl rfl

theorem keepsRecord_hostReadMove (r : Reg) (s : State.Of δ) : KeepsRecord s (hostReadMove r s) := by
  obtain ⟨-, a, -, h⟩ | ⟨f, -, h⟩ := hostReadMove_cases r s <;> rw [h]
  · exact .of_eq rfl rfl rfl
  · exact keepsRecord_recordFault f s

theorem keepsRecord_hostMove (s : State.Of δ) : KeepsRecord s (hostMove s) := by
  obtain ⟨h, -⟩ | ⟨-, a, -, ⟨w, -, h⟩ | ⟨r, -, h⟩ | ⟨-, -, h⟩⟩ := hostMove_cases s <;> rw [h]
  · exact .of_eq rfl rfl rfl
  · exact (keepsRecord_hostWriteMove w s).setHost a
  · exact (keepsRecord_hostReadMove r s).setHost a
  · exact .of_eq rfl rfl rfl

/-- Every turn, a reset among them (R96, R98, R107, R108). -/
theorem keepsRecord_takeTurn (s : State.Of δ) : KeepsRecord s (takeTurn s) := by
  refine KeepsRecord.setSched ?_ _
  cases mover s with
  | host => exact keepsRecord_hostMove s
  | core => exact keepsRecord_coreMove s
  | reset => exact .of_eq rfl rfl rfl

/-- What is recorded stays recorded. -/
theorem KeepsRecord.not_clean (h : KeepsRecord s t) (hs : ¬ s.Clean) : ¬ t.Clean := by
  rintro ⟨hf, hr⟩
  exact hs ⟨List.prefix_nil.1 (hf ▸ h.faults), List.prefix_nil.1 (hr ▸ h.refusals)⟩

/-! ## Who moves -/

/-- With no turn listed, the core moves exactly when it is next and a command is pending. -/
theorem mover_of_no_turns (hs : s.sched.turns = []) :
    mover s = if s.busy && s.sched.coreNext then .core else .host := by
  rw [mover, hs]

end

/-- A run of one step more is a turn and the rest of the run. -/
theorem run_succ (k : Nat) (s : State) :
    Host.Core.run Sys2Proof.core (k + 1) s = Host.Core.run Sys2Proof.core k (takeTurn s) := rfl

/-- No run removes what is recorded. -/
theorem not_clean_of_run : ∀ {k : Nat} {s t : State}, ¬ s.Clean → Host.Core.run Sys2Proof.core k s = .next t →
    ¬ t.Clean
  | 0, _, _, hs, hrun => Host.Outcome.next.inj hrun ▸ hs
  | k + 1, s, _, hs, hrun =>
    not_clean_of_run ((keepsRecord_takeTurn s).not_clean hs) ((run_succ k s).symm.trans hrun)

/-! ## The statements -/

/-- Settles O38: if the core does not move, the host does, and a host's move while BUSY = 1 changes no register. -/
theorem pendingCommandIsTakenInTime : Obligations.PendingCommandIsTakenInTime := by
  intro s hb hs
  have hmover := mover_of_no_turns hs
  cases hnext : s.sched.coreNext with
  | true => exact .inl (by rw [hmover, hb, hnext]; rfl)
  | false =>
    have hm : mover s = .host := by rw [hmover, hnext, Bool.and_false]; rfl
    obtain hsame | ⟨-, hidle, -⟩ | ⟨hcore, -⟩ | hreset := takeTurn_command s
    · obtain hops | ⟨-, hidle, -⟩ := takeTurn_operands s (by simp [hm])
      · obtain ⟨hwidth, hheight, hopa, hopb⟩ := operandsOf_eq_iff.1 hops
        have hbusy : (takeTurn s).busy = true := hsame.busy.trans hb
        have hsched : (takeTurn s).sched = { turns := [], coreNext := true } := by
          rw [takeTurn, setSched_sched, scheduleAfter, hs, hm]
          rfl
        have hcore : mover (takeTurn s) = .core := by
          rw [mover_of_no_turns (by rw [hsched]), hbusy, hsched]
          rfl
        exact .inr ⟨_, rfl, hcore, hbusy, hsame.cmd, hwidth, hheight, hopa, hopb, (keepsRecord_takeTurn s).cfg⟩
      · simp [hb] at hidle
    · simp [hb] at hidle
    · simp [hm] at hcore
    · simp [hm] at hreset

/-- Settles O50: what a turn does to the command machine, read off BUSY before and after. -/
theorem commandMachineTransitions : Obligations.CommandMachineTransitions := by
  intro s t hstep
  obtain rfl := step_next.1 hstep
  refine ⟨fun hidle hbusy => ?_, fun hbusy hidle => ?_⟩
  · obtain hsame | ⟨hm, -, -, l, hl, hw⟩ | ⟨-, hb⟩ | hreset := takeTurn_command s
    · simp [hsame.busy, hidle] at hbusy
    · refine ⟨hm, _, ?_, rfl⟩
      obtain rfl | rfl | ⟨m, hword, rfl⟩ := lineWrite_eq_cmd hw
      · exact .inl hl
      · exact .inr (.inl hl)
      · exact .inr (.inr ⟨m, hword, hl⟩)
    · simp [hidle] at hb
    · simp [takeTurn, hreset, moveOf, platformReset] at hbusy
  · obtain hsame | ⟨-, hb, -⟩ | ⟨hm, -⟩ | hm := takeTurn_command s
    · simp [hsame.busy, hbusy] at hidle
    · simp [hbusy] at hb
    · exact .inl hm
    · exact .inr hm

/-- Settles O52: between two states with BUSY = 0 a turn other than a reset is no start and no end of a command. -/
theorem resultsLastUntilCmdWriteOrReset : Obligations.ResultsLastUntilCmdWriteOrReset := by
  intro s t hstep
  obtain rfl := step_next.1 hstep
  refine ⟨(keepsRecord_takeTurn s).cfg, fun hidle hidle' hm => ?_⟩
  obtain h | ⟨-, -, hbusy, -⟩ | ⟨-, hbusy⟩ | hreset := takeTurn_command s
  · exact ⟨h.cmd, h.done, h.err, h.crcout, h.out, h.errdetail⟩
  · simp [hidle'] at hbusy
  · simp [hidle] at hbusy
  · exact absurd hreset hm

/-- Settles O53: every turn keeps the record. -/
theorem recordedStopsAreNeverRemoved : Obligations.RecordedStopsAreNeverRemoved := by
  intro s t hstep
  obtain rfl := step_next.1 hstep
  exact ⟨(keepsRecord_takeTurn s).faults, (keepsRecord_takeTurn s).refusals⟩

/-- Settles O54: Final asks for Clean, and no run makes a stopped state clean. -/
theorem stoppedInstanceIsNeverFinal : Obligations.StoppedInstanceIsNeverFinal := by
  rintro k s t hs hrun ⟨-, hclean⟩
  exact not_clean_of_run (not_and_or.2 hs) hrun hclean

/-- Settles O55: modifications of one list at different places are independent. -/
theorem platformInstancesAreIndependent : Obligations.PlatformInstancesAreIndependent := by
  intro p j k hjk
  exact ⟨List.getElem?_modify_ne _ _ hjk.symm, List.length_modify _ _ _,
    congrArg Platform.mk (List.modify_modify_ne _ _ _ hjk.symm)⟩

end Sys2Proof.Machine
end
